-- ==== Sys2Proof/Word.lean ====
section
/-! DEFINITION. The words of the Wezbrin 6410 and the index types of its numbered units (00_scope.md, 0.4 and 0.5). -/

namespace Sys2Proof

/-- A byte of a byte list or of a segment's wire. -/
abbrev Byte := BitVec 8

/-- A window word, bit 15 the most significant (0.5). -/
abbrev Word := BitVec 16

/-- A segment, S0 to S5. -/
abbrev Seg := Fin 6

/-- A descriptor slot, slot 0 to slot 31. -/
abbrev SlotId := Fin 32

/-- A Target Table entry, target 0 to target 47. -/
abbrev TargetId := Fin 48

/-- A Responder Match Table entry, entry 0 to entry 3. -/
abbrev EntryId := Fin 4

/-- A mailbox, 0 to 3. -/
abbrev BoxId := Fin 4

end Sys2Proof
end

