-- ==== Sys2Proof/Config.lean ====
section
/-! DEFINITION. The fixed quantities of the part (00_scope.md, section 0.4), the ones no register sets. Durations are in
microseconds, the unit of the time base (R175). The spec leaves no value of the part free, so there is no opaque constant here. -/

namespace Sys2Proof.Config

/-- Family code, read in WINID (section 10.2). -/
def familyCode : Word := 0x6410#16

/-- Revision word, read in WINREV (section 10.2). -/
def revision : Word := 0x0001#16

/-- One millisecond. -/
def ms : Nat := 1000

/-- The unit of the backoff base, the poll interval and the coalescing delay: 100 µs. -/
def unit : Nat := 100

/-- The clock release limit, 50 ms, fixed (R81). -/
def clockReleaseLimit : Nat := 50 * ms

/-- The stuck detect time, 2 ms (R64). -/
def stuckDetectTime : Nat := 2 * ms

/-- The number of clock pulses of a recovery (R83). -/
def recoveryPulses : Nat := 9

/-- The byte a remote reader gets where no buffer byte is left (R159). -/
def fillByte : Byte := 0xFF#8

/-- The largest consecutive failure count (R9). -/
def maxFailureCount : Nat := 15

/-- The largest glitch count (R130). -/
def maxGlitchCount : Nat := 255

/-- The capacity of a mailbox buffer and of the byte lists of a descriptor. -/
def bufferBytes : Nat := 32

/-- The lowest usable 7-bit address. -/
def lowAddress : BitVec 7 := 0x08#7

/-- The highest usable 7-bit address. -/
def highAddress : BitVec 7 := 0x77#7

end Sys2Proof.Config
end

