-- ==== Sys2Proof/Syntax.lean ====
section
/-! DEFINITION. The commands of the block: one constructor of Instr for every row of spec/opcode_table.json, with the
operands that the sender gives. The bits that the part itself holds (CMDARG, TSEL, TIDX) are state and no operands. -/

namespace Sys2Proof

/-- The fourteen commands that a write of CMD can name (section 10.3). -/
inductive Command where
  | allocate | discard | post | abort | retire | flushSegment
  | offline | online | segmentReset | readmit
  | releaseInbound | commitOutbound | cancelOutbound | deviceReset
  deriving DecidableEq, Repr

/-- A window register whose write has no behaviour of its own (R183, R179): TSEL, TIDX and CMDARG store the
value, and the fifteen kinds of read-only register ignore it. -/
inductive PlainRegister where
  | tsel | tidx | cmdArg
  | winId | winRev | cmdRes | cqStat | poolStat | tStat | tbLo | tbHi | mbStat
  | segStat (g : Seg)
  deriving DecidableEq, Repr

/-- The two kinds of access to a window word (R179). -/
inductive Access where
  | read
  | write (value : Word)
  deriving DecidableEq, Repr

/-- The two lines of a segment (R62). -/
inductive Line where
  | clock | data
  deriving DecidableEq, Repr

/-- The commands of the block, one constructor for each row of the table of operations and events.
Where an operand is a Bool its name says what true means. Undefined word w lies at offset 30h + 2w (R180). The operand held is the
time, in microseconds, for which the segment's watched lines have stood as they are when the event is taken (R64): both lines high, or the
data line low. -/
inductive Instr where
  | allocate
  | discard
  | post
  | abort
  | retire
  | flushSegment
  | offline
  | online
  | segmentReset
  | readmit
  | releaseInbound
  | commitOutbound
  | cancelOutbound
  | deviceReset
  | deviceResetEnd
  | unknownCommand (code : BitVec 8)
  | tdataRead
  | targetIdentityWrite (value : Word)
  | targetPolicyWrite (value : Word)
  | slotFieldWrite (value : Word)
  | segmentConfigWrite (value : Word)
  | responderEntryWrite (value : Word)
  | stagingBytesWrite (value : Word)
  | readOnlyTableWrite (value : Word)
  | evtWrite (value : Word)
  | evtenWrite (value : Word)
  | ctlWrite (value : Word)
  | cqcfgWrite (value : Word)
  | tbloRead
  | undefinedWordAccess (word : Fin 8) (access : Access)
  | registerWrite (register : PlainRegister) (value : Word)
  | rstAssert
  | rstEnd
  | spgAssert (g : Seg)
  | spgDeassert (g : Seg)
  | settleTimerExpiry (g : Seg)
  | glitchTimerExpiry (g : Seg)
  | headEvaluation (g : Seg) (held : Nat)
  | engineStart (g : Seg)
  | busyTimerExpiry (g : Seg)
  | stuckDetected (g : Seg)
  | engineAddressByte (g : Seg) (ack : Bool)
  | engineWriteByte (g : Seg) (ack : Bool)
  | engineReadByte (g : Seg) (byte : Byte)
  | closingStop (g : Seg)
  | stopFailed (g : Seg)
  | markCloseStop (g : Seg)
  | offlineCloseStop (g : Seg)
  | arbitrationLost (g : Seg)
  | stretchTimerExpiry (g : Seg)
  | clockReleased (g : Seg)
  | releaseTimerExpiry (g : Seg)
  | recoveryPulse (g : Seg) (dataHigh : Bool)
  | recoveryStop (g : Seg) (rose : Bool)
  | backoffTimerExpiry (g : Seg) (held : Nat)
  | pollTimerExpiry (g : Seg) (held : Nat)
  | coalescingTimerExpiry
  | remoteStart (g : Seg)
  | remoteAddressByte (g : Seg) (byte : Byte)
  | remoteWriteByte (g : Seg) (byte : Byte)
  | remoteReadByte (g : Seg) (ack : Bool)
  | remoteStop (g : Seg)
  | remoteRepeatedStart (g : Seg)
  | holdTimerExpiry (g : Seg)
  | lineChangeOutsideTransfer (g : Seg) (line : Line) (high : Bool)
  | timeBaseCount
  | tdataWriteOutOfRange (value : Word)
  deriving DecidableEq, Repr

end Sys2Proof
end

