-- ==== Sys2Proof/Decode.lean ====
section
/-! DEFINITION. The codes of the commands, and the commands that a word of the opcode table spells. The table of this block
gives its rows no bits, so no word spells a command: the commands come to the machine in its queue (Machine/Step.lean). -/

namespace Sys2Proof

/-- The command codes (section 10.3, first table). -/
def Command.code : Command → BitVec 8
  | .allocate => 0x01#8
  | .discard => 0x02#8
  | .post => 0x03#8
  | .abort => 0x04#8
  | .retire => 0x05#8
  | .flushSegment => 0x06#8
  | .offline => 0x10#8
  | .online => 0x11#8
  | .segmentReset => 0x12#8
  | .readmit => 0x18#8
  | .releaseInbound => 0x20#8
  | .commitOutbound => 0x21#8
  | .cancelOutbound => 0x22#8
  | .deviceReset => 0x5A#8

/-- Every command, in the order of the table of section 10.3. -/
def Command.all : List Command :=
  [.allocate, .discard, .post, .abort, .retire, .flushSegment, .offline, .online, .segmentReset, .readmit,
   .releaseInbound, .commitOutbound, .cancelOutbound, .deviceReset]

/-- The command that a code names, if it names one (R182). -/
def Command.ofCode (code : BitVec 8) : Option Command :=
  Command.all.find? (fun c => c.code == code)

/-- The row that the bits w of an instruction of nbits bits spell. No row of spec/opcode_table.json carries bits. -/
def decodeTableWord (_nbits _w : Nat) : Option Instr := none

end Sys2Proof
end

