-- ==== Sys2Proof/Machine/State.lean ====
section
/-! DEFINITION. The state of the block: every register, list, buffer, timer, mode and indication that the spec names, as plain
data, and the queue of the commands that wait. INVENTORY.md lists each field with the rule that names it. -/

namespace Sys2Proof.Machine

/-- Why a step can stop with a fault. The spec gives the part no condition in which it stops: every event has an effect or
is not taken, so no constructor is needed and no meaning faults. -/
inductive Fault where
  deriving DecidableEq, Repr

/-- Why a command has no meaning. -/
inductive Refusal where
  /-- Raised by exec for a row that has no meaning yet, by its mnemonic; safe, since the step stops. No arm raises it now. -/
  | notModelled (mnemonic : String)
  deriving DecidableEq, Repr

/-! ### Enumerated fields -/

/-- A timer: stopped, or running with the duration in microseconds that it was started with. -/
abbrev Timer := Option Nat

/-- The states of a slot (R18). -/
inductive SlotState where
  | free | staged | pending | active | done
  deriving DecidableEq, Repr

/-- The six kinds of descriptor that can be posted (section 2.2). -/
inductive Kind where
  | write | read | writeRead | probe | blockRead | poll
  deriving DecidableEq, Repr

/-- The cancel mark of a slot (R29). -/
inductive Mark where
  | none | aborted | flushed
  deriving DecidableEq, Repr

/-- The presence of a target (R8). -/
inductive Presence where
  | unknown | present | absent | quarantined
  deriving DecidableEq, Repr

/-- A speed class or a maximum speed (R66). -/
inductive Speed where
  | standard | fast
  deriving DecidableEq, Repr

/-- The loss policy of a segment (R146). -/
inductive LossPolicy where
  | hold | flush
  deriving DecidableEq, Repr

/-- The state of a segment (R127). -/
inductive SegState where
  | offline | dark | settling | up | recovering | faulted
  deriving DecidableEq, Repr

/-- The down mode of a segment (R50). -/
inductive DownMode where
  | none | holding | flushing
  deriving DecidableEq, Repr

/-- The line gate of a segment (R128). -/
inductive Gate where
  | released | connected
  deriving DecidableEq, Repr

/-- The state of a segment's engine (R61). -/
inductive EngineState where
  | idle | waitFree | transfer | backoff | pollWait | releaseWait | recovery
  deriving DecidableEq, Repr

/-- The byte position of the current attempt (R61). -/
inductive BytePos where
  | none
  | address
  | writeByte (index : Nat)
  | secondAddress
  | readByte (index : Nat)
  | closingStop
  deriving DecidableEq, Repr

/-- Why an engine in TRANSFER closes the wire without an active slot: after a cancel mark (R80), after OFFLINE (R88), or
for DEVICE_RESET (R91). none: it does not. -/
inductive Closing where
  | none | mark | offline | deviceReset
  deriving DecidableEq, Repr

/-- The failures of an attempt: the target failures, then the bus failures (R92). -/
inductive Failure where
  | nackAddress | nackData | stretchTimeout | lengthError
  | arbLost | busBusy | busStuck
  deriving DecidableEq, Repr

/-- The sixteen completion statuses (R113). -/
inductive Status where
  | ok | nackAddress | nackData | stretchTimeout | lengthError | arbLost | busBusy | busStuck
  | pollExpired | targetQuarantined | aborted | flushed
  | segmentDown | segmentLost | segmentFault | reset
  deriving DecidableEq, Repr

/-- The outcome field of a slot: none, the reason of a refused POST, or a completion status (R32). -/
inductive SlotOutcome where
  | none | badKind | badTarget | badLength | badPoll
  | completed (status : Status)
  deriving DecidableEq, Repr

/-- The results of the commands (section 10.3). -/
inductive CmdResult where
  | done | unknownCommand | badArgument | noSlot | notStaged | badKind | badTarget | badLength | badPoll
  | notAbortable | queueEmpty | mailboxBusy
  deriving DecidableEq, Repr

/-- The table status, the outcome of a TDATA access (section 10.2). -/
inductive TableStatus where
  | ok | range | readOnly | notStaged | empty | entryInUse | badAddress | duplicate
  deriving DecidableEq, Repr

/-- The phases of a receive context (R151). -/
inductive Phase where
  | listen | address | unaddressed | writing | reading | holding
  deriving DecidableEq, Repr

/-- The direction bit of an address byte (R62). -/
inductive Direction where
  | write | read
  deriving DecidableEq, Repr

/-- The state of an inbound buffer (R154). -/
inductive InboundState where
  | empty | filling | full
  deriving DecidableEq, Repr

/-- The state of an outbound buffer (R154). -/
inductive OutboundState where
  | empty | loaded | sending
  deriving DecidableEq, Repr

/-- The sixteen event flags (R170). -/
inductive EventFlag where
  | cqReady
  | segChange (g : Seg)
  | targetQuarantined
  | mbInbound | mbOverflow | mbUnderflow | mbRefused | inboundLost
  | cmdError | windowError | tableError
  deriving DecidableEq, Repr

/-! ### The blocks -/

/-- The Host Window and the Command Unit (section 10.2): the registers that hold a value of their own. readData is the
model's own field: the word that the last of TDATA_READ, TBLO_READ and UNDEFINED_WORD_ACCESS put on LD15 to LD0. -/
structure Window where
  intEnable : Bool := false
  dispatchHold : Bool := false
  resetBusy : Bool := false
  cmd : BitVec 8 := 0
  cmdArg : Word := 0
  cmdResult : CmdResult := .done
  cmdValue : BitVec 8 := 0
  tselTable : BitVec 3 := 0
  tselInstance : BitVec 6 := 0
  tidxIndex : BitVec 6 := 0
  tidxAuto : Bool := false
  tstat : TableStatus := .ok
  readData : Word := 0
  deriving DecidableEq, Repr

/-- The Event Unit and the Time Base (09_interrupt_events_and_the_time_base.md). -/
structure EventUnit where
  flags : Word := 0
  enables : Word := 0
  timeBase : BitVec 32 := 0
  snapshot : Word := 0
  deriving DecidableEq, Repr

/-- The Completion Queue: the DONE slots, head first (R110), the coalescing settings and timer (R120, R122). -/
structure CompletionQueue where
  queue : List SlotId := []
  threshold : BitVec 6 := 1
  delay : Byte := 0
  timer : Timer := none
  deriving DecidableEq, Repr

/-- A descriptor slot (chapter 2). The host-written fields hold the bits as written (R20). -/
structure Slot where
  state : SlotState := .free
  tag : Byte := 0
  kind : BitVec 3 := 0
  target : BitVec 6 := 0
  notifyNow : Bool := false
  writeCount : BitVec 6 := 0
  writeList : Vector Byte 32 := Vector.replicate 32 0
  readCount : BitVec 6 := 0
  pollMask : Byte := 0
  pollMatch : Byte := 0
  pollInterval : Byte := 0
  pollLimit : Byte := 0
  segment : Seg := 0
  mark : Mark := .none
  failures : Nat := 0
  pollsUsed : Nat := 0
  bytesAccepted : Nat := 0
  readData : List Byte := []
  outcome : SlotOutcome := .none
  completionTime : BitVec 32 := 0
  deriving DecidableEq, Repr

/-- A Target Table entry (chapter 1); the defaults are the values after RST# (R15). -/
structure TargetEntry where
  valid : Bool := false
  segment : BitVec 3 := 0
  address : BitVec 7 := 0
  speedClass : Speed := .standard
  retryLimit : BitVec 3 := 2
  threshold : BitVec 4 := 8
  presence : Presence := .unknown
  failureCount : Nat := 0
  refCount : Nat := 0
  lastFinal : Option Status := none
  deriving DecidableEq, Repr

/-- The Segment Engine (R61). met is the failure that the sequence of the current attempt has met (R75); lastFailure is R101;
closing says why an engine without a slot closes; nackOut: its NACK of a read byte is on the wire (R85); pulses and
recoveryStop follow a recovery (R83). -/
structure Engine where
  state : EngineState := .idle
  active : Option SlotId := none
  pos : BytePos := .none
  address : BitVec 7 := 0
  speed : Speed := .standard
  met : Option Failure := none
  lastFailure : Option Failure := none
  closing : Closing := .none
  nackOut : Bool := false
  pulses : Nat := 0
  recoveryStop : Bool := false
  busyTimer : Timer := none
  stretchTimer : Timer := none
  releaseTimer : Timer := none
  backoffTimer : Timer := none
  pollTimer : Timer := none
  deriving DecidableEq, Repr

/-- The receive context of a segment (R151, R153). stopped: the Responder drives no more bytes of this read (R159). acked
and sent are the model's own fields for what it drove on the data line: the acknowledge bit of the last byte it received
(true for ACK) and the last byte it sent. -/
structure RxContext where
  phase : Phase := .listen
  entry : EntryId := 0
  mailbox : BoxId := 0
  direction : Direction := .write
  readHold : Bool := false
  holdLimit : Byte := 0
  count : Nat := 0
  overflow : Bool := false
  underflow : Bool := false
  fill : Bool := false
  stopped : Bool := false
  holdTimer : Timer := none
  acked : Bool := false
  sent : Byte := 0
  deriving DecidableEq, Repr

/-- The configuration of a segment (R146); the defaults are the values after RST#. -/
structure SegConfig where
  lossPolicy : LossPolicy := .flush
  maxSpeed : Speed := .fast
  settleTime : Byte := 20
  glitchWindow : BitVec 4 := 2
  stretchLimit : Byte := 30
  busBusyLimit : Byte := 50
  backoffBase : Byte := 10
  deriving DecidableEq, Repr

/-- A segment: its controller with the power qualifier (R127, R128, R130), its bus watch (R64), its list (R43), its engine and
its receive context. spg is the recorded level of SPGn; sclHigh and sdaHigh are the recorded levels of the two lines, as the
rows show them (notes/assumptions/6.md). The defaults are the values after RST# (R148). -/
structure Segment where
  state : SegState := .dark
  downMode : DownMode := .flushing
  gate : Gate := .released
  spg : Bool := false
  settleTimer : Timer := none
  glitchTimer : Timer := none
  glitchCount : Nat := 0
  config : SegConfig := {}
  known : Bool := false
  sclHigh : Bool := true
  sdaHigh : Bool := true
  list : List SlotId := []
  engine : Engine := {}
  ctx : RxContext := {}
  deriving DecidableEq, Repr

/-- A Responder Match Table entry (R150); the defaults are the values after RST#. -/
structure MatchEntry where
  enabled : Bool := false
  segment : BitVec 3 := 0
  address : BitVec 7 := 0
  mask : BitVec 7 := 0x7F
  mailbox : BoxId := 0
  readHold : Bool := false
  holdLimit : Byte := 10
  deriving DecidableEq, Repr

/-- A mailbox (R154); the defaults are the values after RST# (R168). -/
structure Mailbox where
  inState : InboundState := .empty
  inLength : Nat := 0
  inBuffer : Vector Byte 32 := Vector.replicate 32 0
  outState : OutboundState := .empty
  outLength : Nat := 0
  outBuffer : Vector Byte 32 := Vector.replicate 32 0
  lastRead : Nat := 0
  staging : Vector Byte 32 := Vector.replicate 32 0
  deriving DecidableEq, Repr

/-- The state of the block. rstHeld: RST# is held low (R189). pending: the commands that wait, first in, first out. -/
structure State where
  win : Window
  ev : EventUnit
  cq : CompletionQueue
  slots : Vector Slot 32
  targets : Vector TargetEntry 48
  segs : Vector Segment 6
  entries : Vector MatchEntry 4
  boxes : Vector Mailbox 4
  rstHeld : Bool
  pending : List Instr
  deriving DecidableEq, Repr

/-- The block right after RST# has ended, with every SPGn deasserted (so that no segment has entered SETTLING, R148), every line
high and no command waiting. -/
def State.reset : State where
  win := {}
  ev := {}
  cq := {}
  slots := Vector.replicate 32 {}
  targets := Vector.replicate 48 {}
  segs := Vector.replicate 6 {}
  entries := Vector.replicate 4 {}
  boxes := Vector.replicate 4 {}
  rstHeld := false
  pending := []

end Sys2Proof.Machine
end

