-- ==== Sys2Proof/Machine/Ops.lean ====
section
/-! DEFINITION. The named reads and updates of the state: one accessor and one update for each numbered unit, and the two
conditions under which the window and the wires act. -/

namespace Sys2Proof.Machine

/-! ### Reads -/

/-- Slot n. -/
def State.slot (s : State) (n : SlotId) : Slot := s.slots[n]

/-- Target Table entry t. -/
def State.target (s : State) (t : TargetId) : TargetEntry := s.targets[t]

/-- Segment g. -/
def State.seg (s : State) (g : Seg) : Segment := s.segs[g]

/-- The engine of segment g. -/
def State.engine (s : State) (g : Seg) : Engine := (s.seg g).engine

/-- The receive context of segment g. -/
def State.ctx (s : State) (g : Seg) : RxContext := (s.seg g).ctx

/-- Responder Match Table entry e. -/
def State.entry (s : State) (e : EntryId) : MatchEntry := s.entries[e]

/-- Mailbox m. -/
def State.box (s : State) (m : BoxId) : Mailbox := s.boxes[m]

/-! ### Updates -/

/-- Changes slot n. -/
def State.updSlot (s : State) (n : SlotId) (f : Slot → Slot) : State :=
  { s with slots := s.slots.set n (f (s.slot n)) }

/-- Changes Target Table entry t. -/
def State.updTarget (s : State) (t : TargetId) (f : TargetEntry → TargetEntry) : State :=
  { s with targets := s.targets.set t (f (s.target t)) }

/-- Changes segment g. -/
def State.updSeg (s : State) (g : Seg) (f : Segment → Segment) : State :=
  { s with segs := s.segs.set g (f (s.seg g)) }

/-- Changes the engine of segment g. -/
def State.updEngine (s : State) (g : Seg) (f : Engine → Engine) : State :=
  s.updSeg g (fun x => { x with engine := f x.engine })

/-- Changes the receive context of segment g. -/
def State.updCtx (s : State) (g : Seg) (f : RxContext → RxContext) : State :=
  s.updSeg g (fun x => { x with ctx := f x.ctx })

/-- Changes Responder Match Table entry e. -/
def State.updEntry (s : State) (e : EntryId) (f : MatchEntry → MatchEntry) : State :=
  { s with entries := s.entries.set e (f (s.entry e)) }

/-- Changes mailbox m. -/
def State.updBox (s : State) (m : BoxId) (f : Mailbox → Mailbox) : State :=
  { s with boxes := s.boxes.set m (f (s.box m)) }

/-- Changes the Host Window. -/
def State.updWin (s : State) (f : Window → Window) : State := { s with win := f s.win }

/-- Changes the Event Unit. -/
def State.updEv (s : State) (f : EventUnit → EventUnit) : State := { s with ev := f s.ev }

/-- Changes the Completion Queue. -/
def State.updCq (s : State) (f : CompletionQueue → CompletionQueue) : State := { s with cq := f s.cq }

/-! ### The target of a slot -/

/-- The number of the Target Table entry that slot n names, if its target field lies in 0 to 47 (R23). -/
def State.targetIndex (s : State) (n : SlotId) : Option TargetId :=
  if h : (s.slot n).target.toNat < 48 then some ⟨(s.slot n).target.toNat, h⟩ else none

/-- The Target Table entry that slot n names. A slot that has been posted names one (R23); for a number outside the table
this is an entry as RST# leaves it. -/
def State.entryOf (s : State) (n : SlotId) : TargetEntry :=
  match s.targetIndex n with
  | some t => s.target t
  | none => {}

/-- Changes the Target Table entry that slot n names. -/
def State.updEntryOf (s : State) (n : SlotId) (f : TargetEntry → TargetEntry) : State :=
  match s.targetIndex n with
  | some t => s.updTarget t f
  | none => s

/-! ### All units of a kind -/

/-- The six segments, in order. -/
def allSegs : List Seg := [0, 1, 2, 3, 4, 5]

/-- The four Responder Match Table entries, in order. -/
def allEntries : List EntryId := [0, 1, 2, 3]

/-- The thirty-two slots, in order. -/
def allSlots : List SlotId := List.finRange 32

/-- Applies f to every element of a vector. -/
def mapAll {α : Type} {n : Nat} (f : α → α) (v : Vector α n) : Vector α n :=
  ⟨⟨v.toArray.toList.map f⟩, by simp⟩

/-! ### When the window and the wires act -/

/-- The window takes accesses: RST# is not held (R189) and no DEVICE_RESET runs (R188). -/
def State.windowOpen (s : State) : Bool := !s.rstHeld && !s.win.resetBusy

/-- The blocks behind the window do their work: neither reset is under way (R148, R149). -/
def State.live (s : State) : Bool := !s.rstHeld && !s.win.resetBusy

/-- A write access to the window: ignored while a reset is under way (R188, R189). -/
def onWindow (f : State → State) (s : State) : State := if s.windowOpen then f s else s

/-- An event on a segment's wires or of a timer: not taken while a reset is under way (R148, R149). -/
def onWire (f : State → State) (s : State) : State := if s.live then f s else s

/-- The number of slots in the state FREE, as POOLSTAT shows it (R19). -/
def State.freeCount (s : State) : Nat := allSlots.countP (fun n => (s.slot n).state = .free)

/-- The lowest-numbered FREE slot (R33). -/
def State.lowestFree (s : State) : Option SlotId := allSlots.find? (fun n => (s.slot n).state = .free)

end Sys2Proof.Machine
end

