-- ==== Sys2Proof/Machine/Flags.lean ====
section
/-! DEFINITION. The event flags with INT# (chapter 9), and the Completion Queue with its flag CQ_READY and its coalescing timer
(chapter 6). -/

namespace Sys2Proof.Machine

/-! ### Event flags -/

/-- The bit of a flag in EVT and EVTEN (section 10.2). -/
def EventFlag.bit : EventFlag → Nat
  | .cqReady => 0
  | .segChange g => 1 + g.val
  | .targetQuarantined => 7
  | .mbInbound => 8
  | .mbOverflow => 9
  | .mbUnderflow => 10
  | .mbRefused => 11
  | .inboundLost => 12
  | .cmdError => 13
  | .windowError => 14
  | .tableError => 15

/-- The sixteen event flags, by bit. -/
def EventFlag.all : List EventFlag :=
  [.cqReady, .segChange 0, .segChange 1, .segChange 2, .segChange 3, .segChange 4, .segChange 5, .targetQuarantined,
   .mbInbound, .mbOverflow, .mbUnderflow, .mbRefused, .inboundLost, .cmdError, .windowError, .tableError]

/-- Whether a flag is set. -/
def State.flag (s : State) (e : EventFlag) : Bool := s.ev.flags.getLsbD e.bit

/-- Sets a flag (R170). -/
def State.raise (s : State) (e : EventFlag) : State :=
  s.updEv (fun x => { x with flags := x.flags ||| BitVec.twoPow 16 e.bit })

/-- INT# is asserted: the global interrupt enable is set and some flag is set whose enable is set (R174); released while RST# is
held. -/
def State.intAsserted (s : State) : Bool :=
  !s.rstHeld && s.win.intEnable && (s.ev.flags &&& s.ev.enables != 0)

/-! ### The Completion Queue -/

/-- Sets CQ_READY, which stops the coalescing timer (R122). -/
def State.signalQueue (s : State) : State := (s.raise .cqReady).updCq (fun q => { q with timer := none })

/-- The depth of the Completion Queue (R110). -/
def State.depth (s : State) : Nat := s.cq.queue.length

/-- The duration of the coalescing timer for a delay in units of 100 µs (R120). -/
def coalescingTime (delay : Byte) : Nat := delay.toNat * Config.unit

/-- Starts the coalescing timer from zero with the present delay, if the delay is nonzero (R122). -/
def State.startCoalescing (s : State) : State :=
  if s.cq.delay = 0 then s else s.updCq (fun q => { q with timer := some (coalescingTime q.delay) })

/-- Appends slot n to the queue: CQ_READY by notify-now or by the depth after the append (R121), else the timer at an append to
an empty queue that leaves the flag clear (R122). -/
def State.appendRecord (s : State) (n : SlotId) : State :=
  let t := s.updCq (fun q => { q with queue := q.queue ++ [n] })
  if (s.slot n).notifyNow || decide (s.cq.threshold.toNat ≤ t.depth) then t.signalQueue
  else if s.cq.queue.isEmpty && !s.flag .cqReady then t.startCoalescing
  else t

/-- Clears the flags written as 1 (R171), and answers a clear of CQ_READY that changes the flag (R123). -/
def State.clearFlags (s : State) (ones : Word) : State :=
  let t := s.updEv (fun x => { x with flags := x.flags &&& ~~~ones })
  if s.flag .cqReady && ones.getLsbD EventFlag.cqReady.bit then
    if s.cq.threshold.toNat ≤ s.depth then t.signalQueue
    else if s.cq.queue.isEmpty then t
    else t.startCoalescing
  else t

/-- The threshold that a written threshold field is stored as: 1 for 0, 32 above 32 (R120). -/
def storedThreshold (written : BitVec 6) : BitVec 6 :=
  if written = 0 then 1 else if 32 < written.toNat then 32 else written

/-- A write of CQCFG: the threshold is compared with the depth, then the delay stops, starts or leaves the timer (R120). -/
def State.configureQueue (s : State) (threshold : BitVec 6) (delay : Byte) : State :=
  let thr := storedThreshold threshold
  let t := s.updCq (fun q => { q with threshold := thr, delay := delay })
  let u := if !s.flag .cqReady && decide (1 ≤ s.depth) && decide (thr.toNat ≤ s.depth) then t.signalQueue else t
  if delay = 0 then u.updCq (fun q => { q with timer := none })
  else if u.cq.timer.isNone && !u.cq.queue.isEmpty && !u.flag .cqReady then u.startCoalescing
  else u

end Sys2Proof.Machine
end

