-- ==== Sys2Proof/Machine/Operands.lean ====
section
/-! DEFINITION. The fields of the window and table words: the codes of the enumerated fields, the placing of fields in words, the
arguments in CMDARG, and every register and table word as the host reads it (chapter 10). -/

namespace Sys2Proof.Machine

/-- A field of a word: the value n at bit lo and above. -/
def place (lo n : Nat) : Word := BitVec.ofNat 16 (n * 2 ^ lo)

/-- The bit of a field of one bit. -/
def flagBit (b : Bool) : Nat := if b then 1 else 0

/-! ### Codes of enumerated fields (section 10.2) -/

/-- Segment state codes. -/
def SegState.code : SegState → Nat
  | .offline => 0
  | .dark => 1
  | .settling => 2
  | .up => 3
  | .recovering => 4
  | .faulted => 5

/-- Engine state codes. -/
def EngineState.code : EngineState → Nat
  | .idle => 0
  | .waitFree => 1
  | .transfer => 2
  | .backoff => 3
  | .pollWait => 4
  | .releaseWait => 5
  | .recovery => 6

/-- Down mode codes. -/
def DownMode.code : DownMode → Nat
  | .none => 0
  | .holding => 1
  | .flushing => 2

/-- Inbound state codes. -/
def InboundState.code : InboundState → Nat
  | .empty => 0
  | .filling => 1
  | .full => 2

/-- Outbound state codes. -/
def OutboundState.code : OutboundState → Nat
  | .empty => 0
  | .loaded => 1
  | .sending => 2

/-- Slot state codes. -/
def SlotState.code : SlotState → Nat
  | .free => 0
  | .staged => 1
  | .pending => 2
  | .active => 3
  | .done => 4

/-- Cancel mark codes. -/
def Mark.code : Mark → Nat
  | .none => 0
  | .aborted => 1
  | .flushed => 2

/-- The kind that a kind code names; 0 is NONE and 7 names no kind (R22). -/
def Kind.ofCode (c : BitVec 3) : Option Kind :=
  match c.toNat with
  | 1 => some .write
  | 2 => some .read
  | 3 => some .writeRead
  | 4 => some .probe
  | 5 => some .blockRead
  | 6 => some .poll
  | _ => none

/-- Presence codes. -/
def Presence.code : Presence → Nat
  | .unknown => 0
  | .present => 1
  | .absent => 2
  | .quarantined => 3

/-- Speed class and maximum speed codes. -/
def Speed.code : Speed → Nat
  | .standard => 0
  | .fast => 1

/-- The speed of a one-bit field. -/
def Speed.ofBit (b : Bool) : Speed := if b then .fast else .standard

/-- Loss policy codes. -/
def LossPolicy.code : LossPolicy → Nat
  | .hold => 0
  | .flush => 1

/-- The loss policy of a one-bit field. -/
def LossPolicy.ofBit (b : Bool) : LossPolicy := if b then .flush else .hold

/-- Completion status codes (R113). -/
def Status.code : Status → Nat
  | .ok => 0x01
  | .nackAddress => 0x02
  | .nackData => 0x03
  | .stretchTimeout => 0x04
  | .lengthError => 0x05
  | .arbLost => 0x06
  | .busBusy => 0x07
  | .busStuck => 0x08
  | .pollExpired => 0x09
  | .targetQuarantined => 0x0A
  | .aborted => 0x0B
  | .flushed => 0x0C
  | .segmentDown => 0x0D
  | .segmentLost => 0x0E
  | .segmentFault => 0x0F
  | .reset => 0x10

/-- Last final status codes: 0 for NONE. -/
def lastFinalCode : Option Status → Nat
  | none => 0
  | some st => st.code

/-- Slot outcome codes. -/
def SlotOutcome.code : SlotOutcome → Nat
  | .none => 0x00
  | .badKind => 0x11
  | .badTarget => 0x12
  | .badLength => 0x13
  | .badPoll => 0x14
  | .completed st => st.code

/-- Result codes of the commands (section 10.3). -/
def CmdResult.code : CmdResult → Nat
  | .done => 0x00
  | .unknownCommand => 0x01
  | .badArgument => 0x02
  | .noSlot => 0x03
  | .notStaged => 0x04
  | .badKind => 0x05
  | .badTarget => 0x06
  | .badLength => 0x07
  | .badPoll => 0x08
  | .notAbortable => 0x09
  | .queueEmpty => 0x0A
  | .mailboxBusy => 0x0B

/-- Table status codes. -/
def TableStatus.code : TableStatus → Nat
  | .ok => 0
  | .range => 1
  | .readOnly => 2
  | .notStaged => 3
  | .empty => 4
  | .entryInUse => 5
  | .badAddress => 6
  | .duplicate => 7

/-! ### Statuses -/

/-- The completion status of a failure (R113). -/
def Failure.status : Failure → Status
  | .nackAddress => .nackAddress
  | .nackData => .nackData
  | .stretchTimeout => .stretchTimeout
  | .lengthError => .lengthError
  | .arbLost => .arbLost
  | .busBusy => .busBusy
  | .busStuck => .busStuck

/-- The failures for which the target is counted (R92). -/
def Failure.isTarget : Failure → Bool
  | .nackAddress | .nackData | .stretchTimeout | .lengthError => true
  | .arbLost | .busBusy | .busStuck => false

/-- The completion status of a cancel mark (R29); NONE has none. -/
def Mark.status : Mark → Option Status
  | .none => Option.none
  | .aborted => some .aborted
  | .flushed => some .flushed

/-! ### Arguments of the commands (section 10.3) -/

/-- CMDARG bits 7 to 0: the slot, segment, target or mailbox number. -/
def State.argNumber (s : State) : Nat := (s.win.cmdArg.extractLsb' 0 8).toNat

/-- CMDARG bits 15 to 8: the length of COMMIT_OUTBOUND. -/
def State.argLength (s : State) : Nat := (s.win.cmdArg.extractLsb' 8 8).toNat

/-- CMDARG bit 8: the mode of OFFLINE, 0 HOLD and 1 FLUSH, as the down mode it latches. -/
def State.argMode (s : State) : DownMode := if s.win.cmdArg.getLsbD 8 then .flushing else .holding

/-! ### The segment of a target, the speed and the lengths -/

/-- The segment that a segment field names, if it lies in 0 to 5. -/
def segOf (field : BitVec 3) : Option Seg := if h : field.toNat < 6 then some ⟨field.toNat, h⟩ else none

/-- The effective speed of an attempt (R66). -/
def effectiveSpeed (speedClass maxSpeed : Speed) : Speed :=
  if speedClass = .fast ∧ maxSpeed = .fast then .fast else .standard

/-- The bus-free interval of a speed in microseconds (R66). -/
def busFreeInterval : Speed → Nat
  | .standard => 5
  | .fast => 2

/-- The length rule of a kind (R36). -/
def lengthsFit (k : Kind) (writeCount readCount : Nat) : Bool :=
  match k with
  | .write => decide (1 ≤ writeCount ∧ writeCount ≤ 32 ∧ readCount = 0)
  | .read => decide (writeCount = 0 ∧ 1 ≤ readCount ∧ readCount ≤ 32)
  | .writeRead => decide (1 ≤ writeCount ∧ writeCount ≤ 32 ∧ 1 ≤ readCount ∧ readCount ≤ 32)
  | .probe => decide (writeCount = 0 ∧ readCount = 0)
  | .blockRead => decide (writeCount ≤ 32)
  | .poll => decide (1 ≤ writeCount ∧ writeCount ≤ 32 ∧ readCount = 0)

/-- A stored time or base: 0 is stored as 1 (R146, R150). -/
def atLeastOne (b : Byte) : Byte := if b = 0 then 1 else b

/-- A segment whose work is not sent to the bus and is ended: down in FLUSHING mode (R46 check 3, R38). -/
def Segment.downFlushing (x : Segment) : Bool :=
  decide (x.downMode = .flushing) &&
    match x.state with
    | .dark | .settling | .offline | .faulted => true
    | .up | .recovering => false

/-- The down mode latched from a loss policy at an entry to DARK (R50). -/
def LossPolicy.downMode : LossPolicy → DownMode
  | .hold => .holding
  | .flush => .flushing

/-! ### Byte lists in words, low byte first (0.5) -/

/-- The word that holds two bytes. -/
def wordOf (low high : Byte) : Word := high ++ low

/-- Byte i of a byte buffer; 00h beyond it. -/
def byteAt (v : Vector Byte 32) (i : Nat) : Byte := v.toArray.toList.getD i 0

/-- Word k of a byte buffer. -/
def bufferWord (v : Vector Byte 32) (k : Nat) : Word := wordOf (byteAt v (2 * k)) (byteAt v (2 * k + 1))

/-- Word k of the first length bytes of a buffer; the positions at and above it read 00h. -/
def bufferWordTo (v : Vector Byte 32) (length k : Nat) : Word :=
  wordOf (if 2 * k < length then byteAt v (2 * k) else 0) (if 2 * k + 1 < length then byteAt v (2 * k + 1) else 0)

/-- Word k of a byte list; the positions at and above its length read 00h. -/
def listWord (l : List Byte) (k : Nat) : Word := wordOf (l.getD (2 * k) 0) (l.getD (2 * k + 1) 0)

/-- Stores byte b at position i, if there is such a position. -/
def setByte (v : Vector Byte 32) (i : Nat) (b : Byte) : Vector Byte 32 := v.setIfInBounds i b

/-- Stores the two bytes of a word at positions 2k and 2k + 1. -/
def setBufferWord (v : Vector Byte 32) (k : Nat) (w : Word) : Vector Byte 32 :=
  setByte (setByte v (2 * k) (w.extractLsb' 0 8)) (2 * k + 1) (w.extractLsb' 8 8)

/-- The buffer dst with its first length bytes taken from the buffer src. -/
def copyBytes (src dst : Vector Byte 32) (length : Nat) : Vector Byte 32 :=
  ⟨⟨src.toArray.toList.take length ++ dst.toArray.toList.drop length⟩, by simp; omega⟩

/-! ### Register words (section 10.2) -/

/-- The glitch-watch indication: set while the glitch timer runs (R130). -/
def Segment.glitchWatch (x : Segment) : Bool := x.glitchTimer.isSome

/-- SEGSTAT of a segment (R181). -/
def segStatWord (x : Segment) : Word :=
  place 0 x.state.code ||| place 3 x.engine.state.code ||| place 6 x.list.length ||| place 12 x.downMode.code
    ||| place 14 (flagBit x.glitchWatch) ||| place 15 (flagBit (decide (1 ≤ x.glitchCount)))

/-- The segment whose context holds a read on mailbox m, if there is one (R161). -/
def State.holder (s : State) (m : BoxId) : Option Seg :=
  allSegs.find? (fun g => decide ((s.ctx g).phase = .holding) && decide ((s.ctx g).mailbox = m))

/-- The outbound field of MBSTAT for mailbox m, with HELD for an EMPTY buffer on which a read is held (R154). -/
def State.mbStatOutbound (s : State) (m : BoxId) : Nat :=
  if (s.box m).outState = .empty ∧ (s.holder m).isSome then 3 else (s.box m).outState.code

/-- The four bits of mailbox m in MBSTAT. -/
def State.mbStatField (s : State) (m : BoxId) : Word :=
  place (4 * m.val) (s.box m).inState.code ||| place (4 * m.val + 2) (s.mbStatOutbound m)

/-- The registers of the window that hold a word (section 10.2); TDATA is read by TDATA_READ. -/
inductive Register where
  | winId | winRev | ctl | cmd | cmdArg | cmdRes | evt | evtEn | cqStat | cqCfg | poolStat | tsel | tidx | tStat
  | tbLo | tbHi | mbStat
  | segStat (g : Seg)
  deriving DecidableEq, Repr

/-- The word of a register while the window is open (section 10.2). -/
def State.registerWord (s : State) : Register → Word
  | .winId => Config.familyCode
  | .winRev => Config.revision
  | .ctl => place 0 (flagBit s.win.intEnable) ||| place 1 (flagBit s.win.dispatchHold) ||| place 15 (flagBit s.win.resetBusy)
  | .cmd => place 0 s.win.cmd.toNat
  | .cmdArg => s.win.cmdArg
  | .cmdRes => place 0 s.win.cmdValue.toNat ||| place 8 s.win.cmdResult.code
  | .evt => s.ev.flags
  | .evtEn => s.ev.enables
  | .cqStat => place 0 s.depth ||| place 8 ((s.cq.queue.headD 0).val)
  | .cqCfg => place 0 s.cq.threshold.toNat ||| place 8 s.cq.delay.toNat
  | .poolStat => place 0 s.freeCount
  | .tsel => place 0 s.win.tselInstance.toNat ||| place 8 s.win.tselTable.toNat
  | .tidx => place 0 s.win.tidxIndex.toNat ||| place 15 (flagBit s.win.tidxAuto)
  | .tStat => place 0 s.win.tstat.code
  | .tbLo => s.ev.timeBase.extractLsb' 0 16
  | .tbHi => s.ev.snapshot
  | .mbStat => s.mbStatField 0 ||| s.mbStatField 1 ||| s.mbStatField 2 ||| s.mbStatField 3
  | .segStat g => segStatWord (s.seg g)

/-- What a read of a register returns: 0 while RST# is held (R189), and 0 while DEVICE_RESET runs but for WINID, WINREV and CTL
(R188). A read changes no state but as the rows TDATA_READ, TBLO_READ and UNDEFINED_WORD_ACCESS say (R179). -/
def State.readRegister (s : State) (r : Register) : Word :=
  if s.rstHeld then 0
  else if s.win.resetBusy then
    match r with
    | .winId | .winRev | .ctl => s.registerWord r
    | _ => 0
  else s.registerWord r

/-! ### Table words (section 10.4) -/

/-- Identity word of a target entry. -/
def TargetEntry.identityWord (e : TargetEntry) : Word :=
  place 0 e.address.toNat ||| place 8 e.segment.toNat ||| place 15 (flagBit e.valid)

/-- Policy word of a target entry. -/
def TargetEntry.policyWord (e : TargetEntry) : Word :=
  place 0 e.retryLimit.toNat ||| place 4 e.threshold.toNat ||| place 8 e.speedClass.code

/-- Word 2 of a target entry. -/
def TargetEntry.presenceWord (e : TargetEntry) : Word := place 0 e.presence.code ||| place 8 e.failureCount

/-- Word 3 of a target entry. -/
def TargetEntry.referenceWord (e : TargetEntry) : Word := place 0 e.refCount ||| place 8 (lastFinalCode e.lastFinal)

/-- Word i of a slot, 0 to 20. -/
def Slot.word (x : Slot) (i : Nat) : Word :=
  match i with
  | 0 => place 0 x.state.code ||| place 4 x.mark.code ||| place 8 x.segment.val ||| place 11 x.outcome.code
  | 1 => place 0 x.tag.toNat ||| place 8 x.target.toNat ||| place 15 (flagBit x.notifyNow)
  | 2 => place 0 x.writeCount.toNat ||| place 6 x.readCount.toNat ||| place 12 x.kind.toNat
  | 3 => wordOf x.pollMask x.pollMatch
  | 4 => wordOf x.pollInterval x.pollLimit
  | k + 5 => bufferWord x.writeList k

/-- Word i of the completion record of slot n, 0 to 22 (R112). -/
def Slot.recordWord (x : Slot) (n : SlotId) (i : Nat) : Word :=
  match i with
  | 0 => place 0 n.val ||| place 8 x.segment.val ||| place 12 x.kind.toNat
  | 1 => place 0 x.tag.toNat ||| place 8 x.target.toNat
  | 2 => place 0 x.outcome.code ||| place 8 x.failures
  | 3 => place 0 x.bytesAccepted ||| place 8 x.readData.length
  | 4 => place 0 x.pollsUsed
  | 21 => x.completionTime.extractLsb' 0 16
  | 22 => x.completionTime.extractLsb' 16 16
  | k + 5 => listWord x.readData k

/-- Word i of the configuration of a segment, 0 to 3. -/
def Segment.configWord (x : Segment) (i : Nat) : Word :=
  match i with
  | 0 => place 0 x.config.settleTime.toNat ||| place 8 x.config.glitchWindow.toNat ||| place 12 x.config.lossPolicy.code
      ||| place 13 x.config.maxSpeed.code
  | 1 => wordOf x.config.stretchLimit x.config.busBusyLimit
  | 2 => place 0 x.config.backoffBase.toNat
  | _ => place 0 x.glitchCount

/-- Word i of a Responder Match Table entry, 0 or 1. -/
def MatchEntry.word (e : MatchEntry) (i : Nat) : Word :=
  match i with
  | 0 => place 0 e.address.toNat ||| place 8 e.segment.toNat ||| place 12 e.mailbox.val ||| place 14 (flagBit e.readHold)
      ||| place 15 (flagBit e.enabled)
  | _ => place 0 e.mask.toNat ||| place 8 e.holdLimit.toNat

/-- Word i of MAILBOX_IN, 0 to 16. -/
def Mailbox.inWord (b : Mailbox) (i : Nat) : Word :=
  match i with
  | 0 => place 0 b.inState.code ||| place 8 b.inLength
  | k + 1 => bufferWordTo b.inBuffer b.inLength k

/-- Word i of MAILBOX_OUT, 0 to 16. -/
def Mailbox.outWord (b : Mailbox) (i : Nat) : Word :=
  match i with
  | 0 => place 0 b.outState.code ||| place 2 b.outLength ||| place 8 b.lastRead
  | k + 1 => bufferWord b.staging k

end Sys2Proof.Machine
end

