-- ==== Sys2Proof/Machine/Work.lean ====
section
/-! DEFINITION. The operations that the rows share: completing a slot, ending a receive context, changing a segment's state, and
the engine's ways through an attempt (chapters 3 to 8). Each cites the rule it follows. -/

namespace Sys2Proof.Machine

/-! ### Completion of a slot -/

/-- Slot n becomes DONE with a status: outcome and completion time, the entry's reference count and last final status, and the
record at the tail of the Completion Queue (R39, R10, R11). -/
def completeSlot (n : SlotId) (st : Status) (s : State) : State :=
  ((s.updSlot n (fun x => { x with state := .done, outcome := .completed st, completionTime := s.ev.timeBase })).updEntryOf n
    (fun e => { e with refCount := e.refCount - 1, lastFinal := some st })).appendRecord n

/-- Completes the active slot of segment g, if there is one. -/
def completeActive (g : Seg) (st : Status) (s : State) : State :=
  match (s.engine g).active with
  | some n => completeSlot n st s
  | none => s

/-- The engine of g returns to IDLE with no active slot, every timer stopped, and the byte position, the attempt parameters and the
last failure status cleared (R61, R87, R101). -/
def idleEngine (g : Seg) (s : State) : State := s.updEngine g (fun _ => {})

/-- The engine ends its active slot n with a status and returns to IDLE (R76). -/
def finishSlot (g : Seg) (n : SlotId) (st : Status) (s : State) : State := idleEngine g (completeSlot n st s)

/-! ### Receive contexts (chapter 8) -/

/-- A context in a phase that serves no mailbox, with everything else cleared. -/
def RxContext.inPhase (p : Phase) : RxContext := { phase := p }

/-- The end of a remote write (R157): FULL with MB_INBOUND, or EMPTY when no byte was stored. -/
def endRemoteWrite (m : BoxId) (s : State) : State :=
  if 1 ≤ (s.box m).inLength then (s.updBox m (fun b => { b with inState := .full })).raise .mbInbound
  else s.updBox m (fun b => { b with inState := .empty })

/-- The end of a remote read from the buffer, of which count bytes were sent (R160). -/
def endRemoteRead (m : BoxId) (count : Nat) (s : State) : State :=
  s.updBox m (fun b => { b with outState := .empty, outLength := 0, lastRead := count })

/-- The end of a remote read in fill (R162). -/
def endFillRead (m : BoxId) (s : State) : State := s.updBox m (fun b => { b with lastRead := 0 })

/-- A stop, a start or a repeated start ends the phase of the context of g as the phase's rule states (R151). -/
def endPhase (g : Seg) (s : State) : State :=
  let c := s.ctx g
  match c.phase with
  | .writing => endRemoteWrite c.mailbox s
  | .reading => if c.fill then endFillRead c.mailbox s else endRemoteRead c.mailbox c.count s
  | .listen | .address | .unaddressed | .holding => s

/-- The context of g sees a start: its phase ends and an address byte follows (R151). -/
def contextStart (g : Seg) (s : State) : State := (endPhase g s).updCtx g (fun _ => RxContext.inPhase .address)

/-- The context of g sees a stop (R151). -/
def contextStop (g : Seg) (s : State) : State := (endPhase g s).updCtx g (fun _ => RxContext.inPhase .listen)

/-- The context of g is cut off because the segment leaves UP or is reset (R167). -/
def endContext (g : Seg) (s : State) : State :=
  let c := s.ctx g
  let t := match c.phase with
    | .writing => (s.updBox c.mailbox (fun b => { b with inState := .empty, inLength := 0 })).raise .inboundLost
    | .reading => if c.fill then s else s.updBox c.mailbox (fun b => { b with outState := .loaded })
    | .listen | .address | .unaddressed | .holding => s
  t.updCtx g (fun _ => RxContext.inPhase .listen)

/-! ### Segment states (chapter 7) -/

/-- The lines of g are released: the gate opens and the bus watch stops (R128). -/
def releaseLines (g : Seg) (s : State) : State := s.updSeg g (fun x => { x with gate := .released, known := false })

/-- Segment g takes a state and a down mode, and SEGn_CHANGE is set (R127, R50). -/
def enterState (g : Seg) (dest : SegState) (dm : DownMode) (s : State) : State :=
  (s.updSeg g (fun x => { x with state := dest, downMode := dm })).raise (.segChange g)

/-- The settle timer and the glitch timer of g are abandoned, the glitch-watch indication with it. -/
def stopQualifier (g : Seg) (s : State) : State := s.updSeg g (fun x => { x with settleTimer := none, glitchTimer := none })

/-- Segment g leaves service with its lines released at once: the steps of R129, in their order. The pending slots are held or
drained by the head evaluations that follow (R45, R51). -/
def depart (g : Seg) (dest : SegState) (dm : DownMode) (st : Status) (s : State) : State :=
  endContext g (enterState g dest dm (idleEngine g (completeActive g st (releaseLines g s))))

/-- The down mode that an entry of g to DARK latches (R50). -/
def State.latched (s : State) (g : Seg) : DownMode := (s.seg g).config.lossPolicy.downMode

/-- Segment g enters DARK from a state in which its power was watched or its work went on (R129, R132, R134). -/
def goDark (g : Seg) (s : State) : State := depart g .dark (s.latched g) .segmentLost (stopQualifier g s)

/-- A DARK segment whose recorded SPGn level is asserted enters SETTLING with a fresh settle timer (R131). -/
def settleIfPowered (g : Seg) (s : State) : State :=
  if (s.seg g).spg then
    (s.updSeg g (fun x => { x with state := .settling, settleTimer := some (x.config.settleTime.toNat * Config.ms) })).raise
      (.segChange g)
  else s

/-- Segment g enters FAULTED, with the effects of a departure; a running glitch timer goes on (R139, R133). -/
def enterFaulted (g : Seg) (s : State) : State := depart g .faulted .flushing .segmentFault s

/-! ### The engine's attempt (chapters 4 and 5) -/

/-- The engine holds the bus: from its start to its stop, its arbitration loss or the release of its lines (R61). -/
def Engine.holdsBus (e : Engine) : Bool :=
  match e.state with
  | .transfer | .releaseWait | .recovery => true
  | .idle | .waitFree | .backoff | .pollWait => false

/-- The clock is held low against the engine: in a stretch, in RELEASE_WAIT or in a held pulse or stop of a recovery (R88, R91). -/
def Engine.clockHeld (e : Engine) : Bool :=
  match e.state with
  | .transfer => e.stretchTimer.isSome
  | .releaseWait => true
  | .recovery => e.releaseTimer.isSome
  | .idle | .waitFree | .backoff | .pollWait => false

/-- The engine of g enters RECOVERY and the segment RECOVERING, which ends the watch of a known transfer and the receive context
(R69, R75, R83, R137, R167). The data line is low. -/
def enterRecovery (g : Seg) (s : State) : State :=
  let t := s.updSeg g (fun x => { x with
    known := false, sdaHigh := false
    engine := { x.engine with
      state := .recovery, met := none, closing := .none, nackOut := false, pulses := 0, recoveryStop := false
      busyTimer := none, stretchTimer := none, releaseTimer := none } })
  endContext g (enterState g .recovering .none t)

/-- The engine of g sends its start on a free bus: it holds the bus in TRANSFER, and the context receives the address byte alongside
it (R67, R151). -/
def sendStart (g : Seg) (s : State) : State :=
  contextStart g (s.updSeg g (fun x => { x with known := true, engine := { x.engine with state := .transfer, busyTimer := none } }))

/-- The busy timer of g starts with the bus busy limit read now (R68). -/
def startBusyTimer (g : Seg) (s : State) : State :=
  s.updSeg g (fun x => { x with engine := { x.engine with busyTimer := some (x.config.busBusyLimit.toNat * Config.ms) } })

/-- The bus of a segment is stuck, when its data line, if low, has been low for held microseconds (R64). -/
def Segment.busStuck (x : Segment) (held : Nat) : Bool := !x.known && !x.sdaHigh && decide (Config.stuckDetectTime ≤ held)

/-- The bus is free for an attempt of a speed, when both lines, if high, have been high for held microseconds (R64). -/
def Segment.busFree (x : Segment) (sp : Speed) (held : Nat) : Bool :=
  !x.known && x.sclHigh && x.sdaHigh && decide (busFreeInterval sp ≤ held)

/-- The bus is busy, for an engine that does not hold it and a bus that is not stuck (R64). -/
def Segment.busBusy (x : Segment) : Bool := x.known || !x.sclHigh

/-- The engine has entered WAIT_FREE: a stuck bus is recovered at once (R69), a free bus gets the start at once (R67), a busy bus
starts the busy timer (R68), and a bus that is merely not free is waited for. -/
def meetBus (g : Seg) (held : Nat) (s : State) : State :=
  if (s.seg g).busStuck held then enterRecovery g s
  else if (s.seg g).busFree (s.engine g).speed held then sendStart g s
  else if (s.seg g).busBusy then startBusyTimer g s
  else s

/-- A descriptor given up on NACK_ADDRESS leaves an UNKNOWN or PRESENT target ABSENT (R97). -/
def markAbsent (n : SlotId) (f : Failure) (s : State) : State :=
  s.updEntryOf n (fun e =>
    if f = .nackAddress ∧ (e.presence = .unknown ∨ e.presence = .present) then { e with presence := .absent } else e)

/-- The third step of R65: the attempt's address and effective speed are fixed, the slot's bytes accepted and read data cleared, the
byte position set, and the engine is in WAIT_FREE. -/
def fixAttempt (g : Seg) (n : SlotId) (s : State) : State :=
  (s.updSlot n (fun x => { x with bytesAccepted := 0, readData := [] })).updSeg g (fun x => { x with
    engine := {
      state := .waitFree, active := some n, pos := .address, address := (s.entryOf n).address
      speed := effectiveSpeed (s.entryOf n).speedClass x.config.maxSpeed, lastFailure := x.engine.lastFailure } })

/-- The status of a slot whose next attempt is not begun, because its failures count exceeds the retry limit read now (R100). No
failure status is kept only while the failures count is 0 (R96, R101). -/
def State.notBegun (s : State) (g : Seg) (n : SlotId) : Option Failure :=
  if (s.entryOf n).retryLimit.toNat < (s.slot n).failures then (s.engine g).lastFailure else none

/-- The engine of g enters WAIT_FREE for its active slot (R65): the mark is read, the failures count is compared with the retry limit,
the attempt is fixed, and the bus is met. -/
def beginAttempt (g : Seg) (held : Nat) (s : State) : State :=
  match (s.engine g).active with
  | none => s
  | some n =>
    match (s.slot n).mark.status with
    | some st => finishSlot g n st s
    | none =>
      match s.notBegun g n with
      | some f => finishSlot g n f.status (markAbsent n f s)
      | none => meetBus g held (fixAttempt g n s)

/-- The duration of a backoff (R98). -/
def backoffTime (base : Byte) (failures : Nat) : Nat := base.toNat * failures * Config.unit

/-- The engine of g waits before the next attempt of its active slot, in BACKOFF or POLL_WAIT; the bus is not held and only the
given timers run (R76, R77). -/
def waitEngine (dest : EngineState) (backoff poll : Timer) (e : Engine) : Engine :=
  { state := dest, active := e.active, address := e.address, speed := e.speed, lastFailure := e.lastFailure
    backoffTimer := backoff, pollTimer := poll }

/-- Entry to BACKOFF (R98), a decision point: a mark completes the slot in place of the wait (R79). -/
def enterBackoff (g : Seg) (n : SlotId) (s : State) : State :=
  match (s.slot n).mark.status with
  | some st => finishSlot g n st s
  | none => s.updSeg g (fun x => { x with
      engine := waitEngine .backoff (some (backoffTime x.config.backoffBase (s.slot n).failures)) none x.engine })

/-- Entry to POLL_WAIT (R77), a decision point as well (R79). -/
def enterPollWait (g : Seg) (n : SlotId) (s : State) : State :=
  match (s.slot n).mark.status with
  | some st => finishSlot g n st s
  | none => s.updSeg g (fun x => { x with
      engine := waitEngine .pollWait none (some ((s.slot n).pollInterval.toNat * Config.unit)) x.engine })

/-- The entry that slot n names becomes QUARANTINED, with its flag unless it was so before (R104, R105, R107). -/
def quarantine (n : SlotId) (s : State) : State :=
  if (s.entryOf n).presence = .quarantined then s
  else (s.updEntryOf n (fun e => { e with presence := .quarantined })).raise .targetQuarantined

/-- A target failure is counted against the target; the count stays at 15 (R95). -/
def countFailure (n : SlotId) (f : Failure) (s : State) : State :=
  if f.isTarget then s.updEntryOf n (fun e => { e with failureCount := min (e.failureCount + 1) Config.maxFailureCount }) else s

/-- The failure meets the quarantine threshold: case 2 of R96, with the count as raised. -/
def TargetEntry.thresholdMet (e : TargetEntry) (f : Failure) : Bool :=
  f.isTarget && decide (e.threshold ≠ 0) && decide (e.threshold.toNat ≤ e.failureCount)

/-- The first, second and fourth step of the failure evaluation: the two counts are raised and the status is recorded (R96). -/
def recordFailure (g : Seg) (n : SlotId) (f : Failure) (s : State) : State :=
  (countFailure n f (s.updSlot n (fun x => { x with failures := x.failures + 1 }))).updEngine g
    (fun e => { e with lastFailure := some f })

/-- The failure evaluation of the active slot of g (R96): the counts, then the first of the four cases that holds. -/
def evaluateFailure (g : Seg) (f : Failure) (s : State) : State :=
  match (s.engine g).active with
  | none => s
  | some n =>
    let t := recordFailure g n f s
    if f = .lengthError then finishSlot g n f.status t
    else if (t.entryOf n).thresholdMet f then finishSlot g n f.status (quarantine n t)
    else if (t.entryOf n).retryLimit.toNat < (t.slot n).failures then finishSlot g n f.status (markAbsent n f t)
    else enterBackoff g n t

/-- A success, or a poll read that does not match, leaves the target PRESENT with count 0 (R94, R103). -/
def creditTarget (n : SlotId) (s : State) : State :=
  s.updEntryOf n (fun e => { e with presence := .present, failureCount := 0 })

/-- The poll byte of the last read, masked, equals the poll match (R27). -/
def Slot.pollMatches (x : Slot) : Bool := (x.readData.headD 0 &&& x.pollMask) == x.pollMatch

/-- A poll read has ended on the wire (R74, R103). -/
def comparePoll (g : Seg) (n : SlotId) (s : State) : State :=
  if (s.slot n).pollMatches then finishSlot g n .ok s
  else
    let t := s.updSlot n (fun x => { x with pollsUsed := x.pollsUsed + 1 })
    if (t.slot n).pollLimit.toNat ≤ (t.slot n).pollsUsed then finishSlot g n .pollExpired t
    else enterPollWait g n t

/-- The success of the attempt of the active slot n (R76, R94). -/
def succeed (g : Seg) (n : SlotId) (s : State) : State :=
  let t := creditTarget n s
  if Kind.ofCode (s.slot n).kind = some .poll then comparePoll g n t else finishSlot g n .ok t

/-- A step of the engine's sequence has been clocked: the clock is high again, and a stretch in it has ended (R63). -/
def stepEngine (g : Seg) (f : Engine → Engine) (s : State) : State :=
  s.updSeg g (fun x => { x with sclHigh := true, engine := { f x.engine with stretchTimer := none } })

/-- A mark ends the active slot n while the engine holds the bus: the slot completes, and the engine stays in TRANSFER without a slot
and sends a stop (R80). nackOut: the engine's NACK of a read byte goes before the stop (R79). -/
def closeByMark (g : Seg) (n : SlotId) (st : Status) (nackOut : Bool) (s : State) : State :=
  stepEngine g (fun e =>
    { state := .transfer, pos := .closingStop, address := e.address, speed := e.speed, closing := .mark, nackOut := nackOut })
    (completeSlot n st s)

/-- A stop of the engine rises: the transfer is no longer known, both lines are high, and the context sees the stop (R75, R64, R151). -/
def stopRises (g : Seg) (s : State) : State :=
  contextStop g (s.updSeg g (fun x => { x with known := false, sclHigh := true, sdaHigh := true }))

/-- The setting of a mark on the active slot of g is a decision point while the engine waits without the bus (R78, R80). -/
def markTaken (g : Seg) (s : State) : State :=
  match (s.engine g).active with
  | none => s
  | some n =>
    match (s.slot n).mark.status, (s.engine g).state with
    | some st, .waitFree => finishSlot g n st s
    | some st, .backoff => finishSlot g n st s
    | some st, .pollWait => finishSlot g n st s
    | _, _ => s

/-! ### The sequence of a kind (R70 to R74) -/

/-- The kinds that send their write list. -/
def Kind.writes : Kind → Bool
  | .write | .writeRead | .blockRead | .poll => true
  | .read | .probe => false

/-- The direction bit of the first address byte (R72, R73): a read for READ and for a BLOCK_READ with write count 0. -/
def Slot.firstDirection (x : Slot) : Direction :=
  match Kind.ofCode x.kind with
  | some .read => .read
  | some .blockRead => if x.writeCount = 0 then .read else .write
  | _ => .write

/-- The step after i write bytes have been acknowledged (R72, R73, R74). -/
def Slot.stepAfterWrites (x : Slot) (i : Nat) : BytePos :=
  if i < x.writeCount.toNat then .writeByte i
  else
    match Kind.ofCode x.kind with
    | some .writeRead | some .blockRead | some .poll => .secondAddress
    | _ => .closingStop

/-- The step after the first address byte has been acknowledged. -/
def Slot.stepAfterAddress (x : Slot) : BytePos :=
  match Kind.ofCode x.kind with
  | some .read => .readByte 0
  | some .blockRead => if x.writeCount = 0 then .readByte 0 else x.stepAfterWrites 0
  | some .write | some .writeRead | some .poll => x.stepAfterWrites 0
  | _ => .closingStop

/-- The read byte at index i, of value b, is the last that the sequence calls for (R71 to R74). For a BLOCK_READ the count byte
decides, the first byte of the read data (R73). -/
def Slot.lastRead (x : Slot) (i : Nat) (b : Byte) : Bool :=
  match Kind.ofCode x.kind with
  | some .blockRead =>
    if i = 0 then decide (b.toNat = 0 ∨ 32 ≤ b.toNat) else decide ((x.readData.headD 0).toNat ≤ i)
  | some .poll => true
  | _ => decide (x.readCount.toNat ≤ i + 1)

/-- The failure that a read byte at index i of value b gives: a count byte of 32 or more (R73). -/
def Slot.readFailure (x : Slot) (i : Nat) (b : Byte) : Option Failure :=
  if Kind.ofCode x.kind = some .blockRead ∧ i = 0 ∧ 32 ≤ b.toNat then some .lengthError else none

/-- The byte that the engine of g sends next: an address byte with its direction bit, or a write byte (R70). -/
def State.engineByte (s : State) (g : Seg) : Option Byte :=
  match (s.engine g).active, (s.engine g).pos with
  | some n, .address =>
    some ((s.engine g).address ++ (match (s.slot n).firstDirection with | .write => 0#1 | .read => 1#1))
  | some _, .secondAddress => some ((s.engine g).address ++ 1#1)
  | some n, .writeByte i => some (byteAt (s.slot n).writeList i)
  | _, _ => none

/-- The step of the sequence that the engine goes on to; before a second address byte it makes a repeated start, alongside which the
context receives (R72, R151). -/
def goTo (g : Seg) (pos : BytePos) (s : State) : State :=
  let t := stepEngine g (fun e => { e with pos := pos }) s
  match pos with
  | .secondAddress => contextStart g t
  | _ => t

end Sys2Proof.Machine
end

