-- ==== Sys2Proof/Machine/PoolCommands.lean ====
section
/-! DEFINITION. How a command written to CMD is carried out (R182), and the commands on slots, lists and the queue: ALLOCATE,
DISCARD, POST, ABORT, RETIRE and FLUSH_SEGMENT. -/

namespace Sys2Proof.Machine

/-- What a command answers: the state it leaves, its result and its returned value. -/
structure Reply where
  state : State
  result : CmdResult
  value : Nat

/-- A refused command: its result and returned value, over the state it leaves. -/
def refuse (s : State) (r : CmdResult) (value : Nat) : Reply := ⟨s, r, value⟩

/-- An accepted command. -/
def accept (s : State) (value : Nat) : Reply := ⟨s, .done, value⟩

/-- The result and the returned value go to CMDRES, and a result other than DONE sets CMD_ERROR (R182). -/
def Reply.record (r : Reply) : State :=
  let t := if r.result = .done then r.state else r.state.raise .cmdError
  t.updWin (fun w => { w with cmdResult := r.result, cmdValue := BitVec.ofNat 8 r.value })

/-- CMD holds a code (R182). -/
def storeCode (code : BitVec 8) (s : State) : State := s.updWin (fun w => { w with cmd := code })

/-- A write of CMD with the code of a command, executed in the event of the write; ignored while a reset is under way (R182, R188,
R189). -/
def runCommand (code : BitVec 8) (f : State → Reply) (s : State) : State :=
  onWindow (fun t => (f (storeCode code t)).record) s

/-- A command whose number in CMDARG names one of k units: BAD_ARGUMENT with returned value 0 outside the range (R182). -/
def withNumber (k : Nat) (f : Fin k → State → Reply) (s : State) : Reply :=
  if h : s.argNumber < k then f ⟨s.argNumber, h⟩ s else refuse s .badArgument 0

/-! ### ALLOCATE, DISCARD, POST -/

/-- ALLOCATE (R33). -/
def allocate (s : State) : Reply :=
  match s.lowestFree with
  | none => refuse s .noSlot 0
  | some n => accept (s.updSlot n (fun _ => { state := .staged })) n.val

/-- DISCARD (R34). -/
def discard (n : SlotId) (s : State) : Reply :=
  if (s.slot n).state = .staged then accept (s.updSlot n (fun x => { x with state := .free })) n.val
  else refuse s .notStaged n.val

/-- The checks 2 to 5 of R35 on a slot: the first that fails, as the result and the outcome it is shown by. -/
def State.postFault (s : State) (n : SlotId) : Option (CmdResult × SlotOutcome) :=
  let x := s.slot n
  match Kind.ofCode x.kind with
  | none => some (.badKind, .badKind)
  | some k =>
    if (s.targetIndex n).isNone || !(s.entryOf n).valid || (segOf (s.entryOf n).segment).isNone then
      some (.badTarget, .badTarget)
    else if !lengthsFit k x.writeCount.toNat x.readCount.toNat then some (.badLength, .badLength)
    else if k = .poll ∧ (x.pollInterval = 0 ∨ x.pollLimit = 0) then some (.badPoll, .badPoll)
    else none

/-- The fields that an accepted POST writes, and the raise of the reference count (R37). -/
def latchPost (n : SlotId) (g : Seg) (s : State) : State :=
  (s.updSlot n (fun x => { x with
    segment := g, mark := .none, failures := 0, pollsUsed := 0, bytesAccepted := 0, readData := [], outcome := .none })).updEntryOf n
    (fun e => { e with refCount := e.refCount + 1 })

/-- An accepted POST to segment g: the slot joins the tail of the list, or is completed at once with SEGMENT_DOWN when g is down and
FLUSHING with an empty list and no active slot (R37, R38). -/
def acceptPost (n : SlotId) (g : Seg) (s : State) : State :=
  let t := latchPost n g s
  if (t.seg g).downFlushing && (t.seg g).list.isEmpty && (t.engine g).active.isNone then completeSlot n .segmentDown t
  else (t.updSlot n (fun x => { x with state := .pending })).updSeg g (fun x => { x with list := x.list ++ [n] })

/-- POST (R35). A valid entry names a segment in 0 to 5 (R4); a segment field outside it is treated as BAD_TARGET. -/
def post (n : SlotId) (s : State) : Reply :=
  if (s.slot n).state = .staged then
    match s.postFault n with
    | some (r, o) => refuse (s.updSlot n (fun x => { x with outcome := o })) r n.val
    | none =>
      match segOf (s.entryOf n).segment with
      | some g => accept (acceptPost n g s) n.val
      | none => refuse s .badTarget n.val
  else refuse s .notStaged n.val

/-! ### ABORT, RETIRE, FLUSH_SEGMENT -/

/-- Sets a cancel mark on slot n. -/
def setMark (k : Mark) (n : SlotId) (s : State) : State := s.updSlot n (fun x => { x with mark := k })

/-- ABORT (R53). A mark set on the active slot of an engine that waits without the bus ends it in this event (R78). -/
def abort (n : SlotId) (s : State) : Reply :=
  match (s.slot n).state with
  | .pending | .active =>
    if (s.slot n).mark = .none then
      let t := setMark .aborted n s
      accept (if (s.slot n).state = .active then markTaken (s.slot n).segment t else t) n.val
    else accept s n.val
  | .free | .staged | .done => refuse s .notAbortable n.val

/-- RETIRE (R118, R40): the head slot becomes FREE with its fields kept; the timer stops when the queue is left empty. -/
def retire (s : State) : Reply :=
  match s.cq.queue with
  | [] => refuse s .queueEmpty 0
  | n :: rest =>
    accept ((s.updSlot n (fun x => { x with state := .free })).updCq (fun q => { q with
      queue := rest, timer := if rest.isEmpty then none else q.timer })) n.val

/-- The slots of segment g whose mark FLUSH_SEGMENT sets: the active slot and the slots of the list, where unmarked (R55). -/
def State.unmarked (s : State) (g : Seg) : List SlotId :=
  ((s.engine g).active.toList ++ (s.seg g).list).filter (fun n => (s.slot n).mark = .none)

/-- FLUSH_SEGMENT (R55). -/
def flushSegment (g : Seg) (s : State) : Reply :=
  accept (markTaken g ((s.unmarked g).foldl (fun t n => setMark .flushed n t) s)) (s.unmarked g).length

/-! ### The meanings -/

/-- ALLOCATE takes the lowest-numbered FREE slot (R33). -/
def execAllocate (s : State) : Host.Outcome State Fault Refusal := .next (runCommand Command.allocate.code allocate s)

/-- DISCARD returns a STAGED slot to the pool (R34). -/
def execDiscard (s : State) : Host.Outcome State Fault Refusal :=
  .next (runCommand Command.discard.code (withNumber 32 discard) s)

/-- POST hands a staged descriptor to the part (R35 to R38). -/
def execPost (s : State) : Host.Outcome State Fault Refusal := .next (runCommand Command.post.code (withNumber 32 post) s)

/-- ABORT sets a cancel mark on one slot (R53). -/
def execAbort (s : State) : Host.Outcome State Fault Refusal := .next (runCommand Command.abort.code (withNumber 32 abort) s)

/-- RETIRE frees the slot of the head record (R118). -/
def execRetire (s : State) : Host.Outcome State Fault Refusal := .next (runCommand Command.retire.code retire s)

/-- FLUSH_SEGMENT marks the work of one segment (R55). -/
def execFlushSegment (s : State) : Host.Outcome State Fault Refusal :=
  .next (runCommand Command.flushSegment.code (withNumber 6 flushSegment) s)

end Sys2Proof.Machine
end

