-- ==== Sys2Proof/Machine/MailboxCommands.lean ====
section
/-! DEFINITION. The mailbox commands: RELEASE_INBOUND, COMMIT_OUTBOUND and CANCEL_OUTBOUND (section 8.7). -/

namespace Sys2Proof.Machine

/-- RELEASE_INBOUND (R163): the buffer positions keep their bytes. -/
def releaseInbound (m : BoxId) (s : State) : Reply :=
  match (s.box m).inState with
  | .full => accept (s.updBox m (fun b => { b with inState := .empty, inLength := 0 })) m.val
  | .empty => accept s m.val
  | .filling => refuse s .mailboxBusy m.val

/-- The held read of context g takes the buffer: READING from byte 0, with the hold timer abandoned and the clock released (R164). -/
def serveHeld (g : Seg) (s : State) : State :=
  s.updCtx g (fun c => { c with phase := .reading, count := 0, fill := false, underflow := false, stopped := false, holdTimer := none })

/-- The held read of context g is served with the fill byte, and MB_UNDERFLOW is set (R162). -/
def serveFill (g : Seg) (s : State) : State :=
  (s.updCtx g (fun c => { c with phase := .reading, count := 0, fill := true, underflow := true, stopped := false, holdTimer := none })).raise
    .mbUnderflow

/-- The commit of the first length staging bytes (R164, R191). -/
def commitBytes (m : BoxId) (length : Nat) (s : State) : State :=
  s.updBox m (fun b => { b with
    outState := .loaded, outLength := length, outBuffer := copyBytes b.staging b.outBuffer length })

/-- COMMIT_OUTBOUND with the length in CMDARG (R164). Refused for its length it returns the mailbox number, by section 8.7, and not the 0 of
R182: DEDUCED, notes/assumptions/17.md. -/
def commitOutbound (m : BoxId) (s : State) : Reply :=
  if s.argLength = 0 ∨ 32 < s.argLength then refuse s .badArgument m.val
  else if (s.box m).outState = .empty then
    accept
      (match s.holder m with
        | some g => serveHeld g ((commitBytes m s.argLength s).updBox m (fun b => { b with outState := .sending }))
        | none => commitBytes m s.argLength s)
      m.val
  else refuse s .mailboxBusy m.val

/-- CANCEL_OUTBOUND (R165). -/
def cancelOutbound (m : BoxId) (s : State) : Reply :=
  match (s.box m).outState with
  | .loaded => accept (s.updBox m (fun b => { b with outState := .empty, outLength := 0 })) m.val
  | .sending => refuse s .mailboxBusy m.val
  | .empty =>
    match s.holder m with
    | some g => accept (serveFill g s) m.val
    | none => accept s m.val

/-- RELEASE_INBOUND gives the inbound buffer back to the remote side (R163). -/
def execReleaseInbound (s : State) : Host.Outcome State Fault Refusal :=
  .next (runCommand Command.releaseInbound.code (withNumber 4 releaseInbound) s)

/-- COMMIT_OUTBOUND hands the staging bytes to the remote side (R164). -/
def execCommitOutbound (s : State) : Host.Outcome State Fault Refusal :=
  .next (runCommand Command.commitOutbound.code (withNumber 4 commitOutbound) s)

/-- CANCEL_OUTBOUND withdraws committed bytes, or ends a held read (R165). -/
def execCancelOutbound (s : State) : Host.Outcome State Fault Refusal :=
  .next (runCommand Command.cancelOutbound.code (withNumber 4 cancelOutbound) s)

end Sys2Proof.Machine
end

