-- ==== Sys2Proof/Machine/ResponderEvents.lean ====
section
/-! DEFINITION. The events of remote transfers on a segment's wires (chapter 8), with what they mean for the bus watch of the segment's
engine (R64, R68). -/

namespace Sys2Proof.Machine

/-- The bus of g is watched: the segment is UP or RECOVERING (R64). -/
def Segment.watched (x : Segment) : Bool :=
  match x.state with
  | .up | .recovering => true
  | .offline | .dark | .settling | .faulted => false

/-- The engine controls the transfer on its segment (R86): from its start until its stop, its arbitration loss or the release. -/
def Engine.controls (e : Engine) : Bool :=
  match e.state with
  | .transfer | .releaseWait => true
  | .idle | .waitFree | .backoff | .pollWait | .recovery => false

/-! ### Starts and stops of others -/

/-- A start makes the bus of a segment busy for an engine in WAIT_FREE: the busy timer starts, and goes on in the spell of a transfer that is
known already. A clock that was low has risen before a start, which ended its spell (R62, R68). -/
def becomeBusy (x : Segment) : Engine :=
  if x.engine.state = .waitFree ∧ (x.known = false ∨ x.engine.busyTimer.isNone) then
    { x.engine with busyTimer := some (x.config.busBusyLimit.toNat * Config.ms) }
  else x.engine

/-- A start or a repeated start of another controller is seen on a watched segment: the data line has fallen with the clock high (R62), the
transfer is known (R64), the bus is busy for the
engine (R68), and the context of a segment in UP receives an address byte (R151). While a read is held the clock is low, and no start can
be made (R161). -/
def seeStart (g : Seg) (s : State) : State :=
  if (s.seg g).watched ∧ (s.engine g).controls = false ∧ (s.ctx g).phase ≠ .holding then
    let t := s.updSeg g (fun x => { x with known := true, sclHigh := true, sdaHigh := false, engine := becomeBusy x })
    if (s.seg g).state = .up then contextStart g t else t
  else s

/-- A stop of another controller is seen on a watched segment: no transfer is known, both lines are high, a busy spell of the engine ends, and
the context is in LISTEN (R64, R68, R151). While a read is held no stop can be made (R161). -/
def seeStop (g : Seg) (s : State) : State :=
  if (s.seg g).watched ∧ (s.engine g).controls = false ∧ (s.ctx g).phase ≠ .holding then
    let t := s.updSeg g (fun x => { x with
      known := false, sclHigh := true, sdaHigh := true
      engine := { x.engine with busyTimer := none } })
    if (s.seg g).state = .up then contextStop g t else t
  else s

/-! ### Address evaluation -/

/-- A Responder Match Table entry matches a received address on segment g (R152). -/
def MatchEntry.fits (e : MatchEntry) (g : Seg) (a : BitVec 7) : Bool :=
  e.enabled && decide (e.segment.toNat = g.val) && ((a ^^^ e.address) &&& e.mask == 0)

/-- The entry that a received address matches on segment g: the lowest-numbered one (R152). -/
def State.matching (s : State) (g : Seg) (a : BitVec 7) : Option EntryId :=
  if Config.lowAddress.toNat ≤ a.toNat ∧ a.toNat ≤ Config.highAddress.toNat then
    allEntries.find? (fun e => (s.entry e).fits g a)
  else none

/-- The direction of a direction bit (R62). -/
def Direction.ofBit (b : Bool) : Direction := if b then .read else .write

/-- What a matched evaluation latches into the context, with its counts and indications cleared and the address ACKed (R153, R155, R158). -/
def latchMatch (e : EntryId) (x : MatchEntry) (d : Direction) (p : Phase) : RxContext :=
  { phase := p, entry := e, mailbox := x.mailbox, direction := d, readHold := x.readHold, holdLimit := x.holdLimit, acked := true
    holdTimer := if p = .holding then some (x.holdLimit.toNat * Config.ms) else none }

/-- The Responder leaves the acknowledge bit alone, and the context takes no part in the transfer (R152, R155, R158). -/
def leaveAddress (g : Seg) (s : State) : State := s.updCtx g (fun _ => RxContext.inPhase .unaddressed)

/-- A matched address that is NACKed because of its mailbox's state (R155, R158). -/
def refuseAddress (g : Seg) (s : State) : State := (leaveAddress g s).raise .mbRefused

/-- A matched address with direction write (R155). -/
def answerWrite (g : Seg) (e : EntryId) (s : State) : State :=
  let x := s.entry e
  if (s.box x.mailbox).inState = .empty then
    (s.updBox x.mailbox (fun b => { b with inState := .filling, inLength := 0 })).updCtx g
      (fun _ => latchMatch e x .write .writing)
  else refuseAddress g s

/-- A matched address with direction read (R158, R161). -/
def answerRead (g : Seg) (e : EntryId) (s : State) : State :=
  let x := s.entry e
  match (s.box x.mailbox).outState with
  | .loaded =>
    (s.updBox x.mailbox (fun b => { b with outState := .sending })).updCtx g (fun _ => latchMatch e x .read .reading)
  | .sending => refuseAddress g s
  | .empty =>
    if (s.holder x.mailbox).isNone ∧ x.readHold then s.updCtx g (fun _ => latchMatch e x .read .holding)
    else refuseAddress g s

/-- The evaluation of an address byte at its eighth bit (R152). -/
def evaluateAddress (g : Seg) (byte : Byte) (s : State) : State :=
  match s.matching g (byte.extractLsb' 1 7) with
  | none => leaveAddress g s
  | some e =>
    match Direction.ofBit (byte.getLsbD 0) with
    | .write => answerWrite g e s
    | .read => answerRead g e s

/-! ### Data bytes -/

/-- A byte of a remote write into mailbox m (R156). The context counts every byte received, the ones beyond 32 too (R151). -/
def receiveByte (g : Seg) (m : BoxId) (b : Byte) (s : State) : State :=
  if (s.box m).inLength < Config.bufferBytes then
    (s.updBox m (fun x => { x with inBuffer := setByte x.inBuffer x.inLength b, inLength := x.inLength + 1 })).updCtx g
      (fun c => { c with count := c.count + 1, acked := true })
  else if (s.ctx g).overflow then s.updCtx g (fun c => { c with count := c.count + 1, acked := false })
  else (s.updCtx g (fun c => { c with count := c.count + 1, acked := false, overflow := true })).raise .mbOverflow

/-- The byte that the Responder sends next in a read: from the buffer while it lasts, else the fill byte (R159, R162). -/
def State.nextSent (s : State) (g : Seg) : Byte :=
  let c := s.ctx g
  if c.fill = false ∧ c.count < (s.box c.mailbox).outLength then byteAt (s.box c.mailbox).outBuffer c.count else Config.fillByte

/-- A byte of a remote read with the remote controller's acknowledge (R159): after a NACK the Responder stops driving the line. -/
def sendByte (g : Seg) (ack : Bool) (s : State) : State :=
  let c := s.ctx g
  let b := s.nextSent g
  if c.fill = false ∧ c.count < (s.box c.mailbox).outLength then
    s.updCtx g (fun c => { c with count := c.count + 1, sent := b, stopped := !ack })
  else if c.underflow then s.updCtx g (fun c => { c with sent := b, stopped := !ack })
  else (s.updCtx g (fun c => { c with sent := b, stopped := !ack, underflow := true })).raise .mbUnderflow

/-! ### The meanings -/

/-- The context of g takes part in the transfer of another controller: the segment is UP and its engine does not control the transfer (R152,
R86). -/
def State.served (s : State) (g : Seg) (p : Phase) : Bool :=
  decide ((s.seg g).state = .up) && !(s.engine g).controls && decide ((s.ctx g).phase = p)

/-- REMOTE_START (R151). -/
def execRemoteStart (g : Seg) (s : State) : Host.Outcome State Fault Refusal := .next (onWire (seeStart g) s)

/-- REMOTE_ADDRESS_BYTE, the address and its direction bit, most significant bit first (R152). -/
def execRemoteAddressByte (g : Seg) (b : Byte) (s : State) : Host.Outcome State Fault Refusal :=
  .next (onWire (fun s => if s.served g .address then evaluateAddress g b s else s) s)

/-- REMOTE_WRITE_BYTE (R156). -/
def execRemoteWriteByte (g : Seg) (b : Byte) (s : State) : Host.Outcome State Fault Refusal :=
  .next (onWire (fun s => if s.served g .writing then receiveByte g (s.ctx g).mailbox b s else s) s)

/-- REMOTE_READ_BYTE (R159). -/
def execRemoteReadByte (g : Seg) (ack : Bool) (s : State) : Host.Outcome State Fault Refusal :=
  .next (onWire (fun s => if s.served g .reading ∧ (s.ctx g).stopped = false then sendByte g ack s else s) s)

/-- REMOTE_STOP (R151, R157, R160, R162). -/
def execRemoteStop (g : Seg) (s : State) : Host.Outcome State Fault Refusal := .next (onWire (seeStop g) s)

/-- REMOTE_REPEATED_START (R151, R157, R160, R162). -/
def execRemoteRepeatedStart (g : Seg) (s : State) : Host.Outcome State Fault Refusal := .next (onWire (seeStart g) s)

/-- HOLD_TIMER_EXPIRY (R162). -/
def execHoldTimerExpiry (g : Seg) (s : State) : Host.Outcome State Fault Refusal :=
  .next (onWire (fun s => if (s.ctx g).phase = .holding ∧ (s.ctx g).holdTimer.isSome then serveFill g s else s) s)

end Sys2Proof.Machine
end

