-- ==== Sys2Proof/Machine/EngineEvents.lean ====
section
/-! DEFINITION. The dispatch of a segment and the events of its engine (chapters 3 to 5). An event that cannot occur in the state
in which it is offered is not taken: the state stays. -/

namespace Sys2Proof.Machine

/-! ### Dispatch -/

/-- The head of the list of g leaves it and completes with a status, without use of the bus (R47). -/
def completeHead (g : Seg) (n : SlotId) (st : Status) (s : State) : State :=
  completeSlot n st (s.updSeg g (fun x => { x with list := x.list.tail }))

/-- The head of the list of g becomes ACTIVE as the active slot of the engine, which begins its first attempt (R48, R65, R101). -/
def promote (g : Seg) (n : SlotId) (held : Nat) (s : State) : State :=
  beginAttempt g held ((s.updSlot n (fun x => { x with state := .active })).updSeg g (fun x => { x with
    list := x.list.tail, engine := { active := some n } }))

/-- The checks of R46 on the head n of the list of g. -/
def evaluateHead (g : Seg) (held : Nat) (n : SlotId) (s : State) : State :=
  match (s.slot n).mark.status with
  | some st => completeHead g n st s
  | none =>
    if (s.entryOf n).presence = .quarantined ∧ Kind.ofCode (s.slot n).kind ≠ some .probe then completeHead g n .targetQuarantined s
    else if (s.seg g).downFlushing then completeHead g n .segmentDown s
    else if (s.seg g).state = .up ∧ s.win.dispatchHold = false ∧ (s.engine g).state = .idle then promote g n held s
    else s

/-- HEAD_EVALUATION (R45, R46): of a non-empty list whose engine has no active slot. -/
def execHeadEvaluation (g : Seg) (held : Nat) (s : State) : Host.Outcome State Fault Refusal :=
  .next (onWire (fun s =>
    match (s.seg g).list, (s.engine g).active with
    | n :: _, none => evaluateHead g held n s
    | _, _ => s) s)

/-! ### Waiting for the bus -/

/-- ENGINE_START: the bus has become free for an engine in WAIT_FREE (R67): no transfer is known, and both lines are high (R64). The row is
the moment at which they have been so for the bus-free interval of the attempt's speed. DESIGN CHOICE (notes/assumptions/5.md). -/
def execEngineStart (g : Seg) (s : State) : Host.Outcome State Fault Refusal :=
  .next (onWire (fun s =>
    if (s.engine g).state = .waitFree ∧ (s.seg g).state = .up ∧ (s.seg g).busFree (s.engine g).speed (busFreeInterval (s.engine g).speed) then sendStart g s else s) s)

/-- BUSY_TIMER_EXPIRY: the attempt ends BUS_BUSY without a start (R68, R102). -/
def execBusyTimerExpiry (g : Seg) (s : State) : Host.Outcome State Fault Refusal :=
  .next (onWire (fun s =>
    if (s.engine g).state = .waitFree ∧ (s.engine g).busyTimer.isSome then evaluateFailure g .busBusy s else s) s)

/-- STUCK_DETECTED: the bus has become stuck while the engine is in WAIT_FREE (R69): no transfer is known, and the data line is low (R64).
The row is the moment at which it has been low for the stuck detect time. DESIGN CHOICE (notes/assumptions/5.md). -/
def execStuckDetected (g : Seg) (s : State) : Host.Outcome State Fault Refusal :=
  .next (onWire (fun s =>
    if (s.engine g).state = .waitFree ∧ (s.seg g).state = .up ∧ (s.seg g).busStuck Config.stuckDetectTime then enterRecovery g s else s) s)

/-! ### Bytes -/

/-- The slot and the byte position of an engine whose own attempt is on the wire: in TRANSFER, with an active slot. -/
def Engine.sending (e : Engine) : Option (SlotId × BytePos) :=
  if e.state = .transfer ∧ e.closing = .none then e.active.map (fun n => (n, e.pos)) else none

/-- The attempt of g has met a failure at an acknowledge, and the engine goes on to the closing stop (R70). -/
def meetFailure (g : Seg) (f : Failure) (s : State) : State :=
  stepEngine g (fun e => { e with met := some f, pos := .closingStop }) s

/-- The address byte of g has been sent whole, so the context, which received it alongside, takes no part in the transfer (R151). -/
def contextUnaddressed (g : Seg) (s : State) : State := s.updCtx g (fun _ => RxContext.inPhase .unaddressed)

/-- An acknowledged address byte makes an UNKNOWN or ABSENT target PRESENT (R93). -/
def learnAddressAck (n : SlotId) (s : State) : State :=
  s.updEntryOf n (fun e =>
    if e.presence = .unknown ∨ e.presence = .absent then { e with presence := .present } else e)

/-- After an acknowledged byte: the closing stop where the sequence has ended, else the mark is read, and an unmarked slot goes on
(R79). -/
def afterAck (g : Seg) (n : SlotId) (pos : BytePos) (s : State) : State :=
  if pos = .closingStop then goTo g pos s
  else
    match (s.slot n).mark.status with
    | some st => closeByMark g n st false s
    | none => goTo g pos s

/-- ENGINE_ADDRESS_BYTE with its acknowledge (R70, R93, R79). -/
def execEngineAddressByte (g : Seg) (ack : Bool) (s : State) : Host.Outcome State Fault Refusal :=
  .next (onWire (fun s =>
    match (s.engine g).sending with
    | some (n, .address) =>
      if ack then afterAck g n (s.slot n).stepAfterAddress (learnAddressAck n (contextUnaddressed g s))
      else meetFailure g .nackAddress (contextUnaddressed g s)
    | some (n, .secondAddress) =>
      if ack then afterAck g n (.readByte 0) (learnAddressAck n (contextUnaddressed g s))
      else meetFailure g .nackAddress (contextUnaddressed g s)
    | _ => s) s)

/-- ENGINE_WRITE_BYTE with its acknowledge (R70, R79). -/
def execEngineWriteByte (g : Seg) (ack : Bool) (s : State) : Host.Outcome State Fault Refusal :=
  .next (onWire (fun s =>
    match (s.engine g).sending with
    | some (n, .writeByte i) =>
      if ack then
        afterAck g n ((s.slot n).stepAfterWrites (i + 1)) (s.updSlot n (fun x => { x with bytesAccepted := x.bytesAccepted + 1 }))
      else meetFailure g .nackData s
    | _ => s) s)

/-- A read byte joins the read data as its eighth bit is sampled (R71). -/
def appendRead (n : SlotId) (b : Byte) (s : State) : State := s.updSlot n (fun x => { x with readData := x.readData ++ [b] })

/-- The last read byte is NACKed, and the closing stop follows (R71, R73). -/
def endRead (g : Seg) (f : Option Failure) (s : State) : State :=
  stepEngine g (fun e => { e with met := f, pos := .closingStop, nackOut := true }) s

/-- ENGINE_READ_BYTE (R71, R73, R79): the byte, then its acknowledge: NACK for the last byte, NACK with the slot ended for a marked
slot, else ACK. -/
def execEngineReadByte (g : Seg) (b : Byte) (s : State) : Host.Outcome State Fault Refusal :=
  .next (onWire (fun s =>
    match (s.engine g).sending with
    | some (n, .readByte i) =>
      if (s.slot n).lastRead i b then endRead g ((s.slot n).readFailure i b) (appendRead n b s)
      else
        match (s.slot n).mark.status with
        | some st => closeByMark g n st true (appendRead n b s)
        | none => goTo g (.readByte (i + 1)) (appendRead n b s)
    | _ => s) s)

/-! ### Stops -/

/-- CLOSING_STOP: the data line rises at the closing stop, and the outcome is taken (R75, R76, R82). -/
def execClosingStop (g : Seg) (s : State) : Host.Outcome State Fault Refusal :=
  .next (onWire (fun s =>
    match (s.engine g).sending with
    | some (n, .closingStop) =>
      match (s.engine g).met with
      | some f => evaluateFailure g f (stopRises g s)
      | none => succeed g n (stopRises g s)
    | _ => s) s)

/-- The engine is at a stop or at a repeated start of its attempt, or at the stop after a cancel mark (R75, R80). -/
def Engine.atStop (e : Engine) : Bool :=
  match e.state, e.closing, e.active, e.pos with
  | .transfer, .none, some _, .closingStop => true
  | .transfer, .none, some _, .secondAddress => true
  | .transfer, .mark, _, _ => true
  | _, _, _, _ => false

/-- The stop of an engine that closes after OFFLINE has ended, with the data line risen or not: the lines are released and the engine is IDLE
(R88). -/
def endOfflineClose (g : Seg) (rose : Bool) (s : State) : State :=
  idleEngine g (releaseLines g (s.updSeg g (fun x => { x with sdaHigh := rose })))

/-- STOP_FAILED: the data line does not rise; the outcome is set aside and the line is recovered (R75, R80, R83). The stop after OFFLINE
ends whether or not the line rises (R88). -/
def execStopFailed (g : Seg) (s : State) : Host.Outcome State Fault Refusal :=
  .next (onWire (fun s =>
    if (s.engine g).atStop then enterRecovery g s
    else if (s.engine g).state = .transfer ∧ (s.engine g).closing = .offline then endOfflineClose g false s
    else s) s)

/-- MARK_CLOSE_STOP: the stop after a cancel mark rises, and the engine is IDLE (R80). -/
def execMarkCloseStop (g : Seg) (s : State) : Host.Outcome State Fault Refusal :=
  .next (onWire (fun s =>
    if (s.engine g).state = .transfer ∧ (s.engine g).closing = .mark then idleEngine g (stopRises g s) else s) s)

/-- OFFLINE_CLOSE_STOP: the stop after OFFLINE ends with the data line high (R88). -/
def execOfflineCloseStop (g : Seg) (s : State) : Host.Outcome State Fault Refusal :=
  .next (onWire (fun s =>
    if (s.engine g).state = .transfer ∧ (s.engine g).closing = .offline then endOfflineClose g true s else s) s)

/-! ### Arbitration -/

/-- The engine of g leaves the data line high in a bit of its own attempt: in a 1 bit of the address or write byte that it sends, or in
its NACK of a read byte (R85). -/
def State.arbitrates (s : State) (g : Seg) : Bool :=
  match (s.engine g).sending, s.engineByte g with
  | some _, some b => b != 0
  | some (_, .closingStop), none => (s.engine g).nackOut
  | _, _ => false

/-- The data line of g is sampled low while the clock is high, in a bit that the engine leaves high (R85). -/
def sampleLow (g : Seg) (s : State) : State := s.updSeg g (fun x => { x with sclHigh := true, sdaHigh := false })

/-- ARBITRATION_LOST (R85): the attempt ends ARB_LOST at once. In the NACK that goes before a stop after a cancel mark it only ends the
close (R80). The transfer stays known, and the context goes on with an address byte that it receives (R86). -/
def execArbitrationLost (g : Seg) (s : State) : Host.Outcome State Fault Refusal :=
  .next (onWire (fun s =>
    if s.arbitrates g then evaluateFailure g .arbLost (sampleLow g s)
    else if (s.engine g).state = .transfer ∧ (s.engine g).closing = .mark ∧ (s.engine g).nackOut then idleEngine g (sampleLow g s)
    else s) s)

/-! ### A held clock -/

/-- STRETCH_TIMER_EXPIRY (R81, R80): the outcome becomes STRETCH_TIMEOUT where there is a slot, and the engine waits for the clock. It is not
taken while the timer is stopped: no stretch has started, or the clock has been seen high (R63). -/
def execStretchTimerExpiry (g : Seg) (s : State) : Host.Outcome State Fault Refusal :=
  .next (onWire (fun s =>
    if (s.engine g).state = .transfer ∧ (s.engine g).stretchTimer.isSome then
      s.updSeg g (fun x => { x with
        sclHigh := false
        engine := { x.engine with
          state := .releaseWait, met := x.engine.active.map (fun _ => .stretchTimeout), nackOut := false
          stretchTimer := none, releaseTimer := some Config.clockReleaseLimit } })
    else s) s)

/-- CLOCK_RELEASED: the clock is seen high in RELEASE_WAIT, and the engine closes with a stop in TRANSFER (R82, R80). The outcome is
taken when that stop rises. -/
def execClockReleased (g : Seg) (s : State) : Host.Outcome State Fault Refusal :=
  .next (onWire (fun s =>
    if (s.engine g).state = .releaseWait then
      s.updSeg g (fun x => { x with
        sclHigh := true
        engine := { x.engine with state := .transfer, pos := .closingStop, releaseTimer := none } })
    else s) s)

/-- RELEASE_TIMER_EXPIRY: the clock stays low beyond the clock release limit in RELEASE_WAIT, or in a held pulse or stop of a
recovery, and the segment enters FAULTED (R82, R83, R84, R139). It is not taken while the timer is stopped. -/
def execReleaseTimerExpiry (g : Seg) (s : State) : Host.Outcome State Fault Refusal :=
  .next (onWire (fun s =>
    if ((s.engine g).state = .releaseWait ∨ (s.engine g).state = .recovery) ∧ (s.engine g).releaseTimer.isSome then
      enterFaulted g (s.updSeg g (fun x => { x with sclHigh := false }))
    else s) s)

/-! ### Recovery -/

/-- A recovery has freed the line: the segment is UP again with its watch started anew, and the attempt's outcome is BUS_STUCK, or the
engine without a slot is IDLE (R84, R138). -/
def recovered (g : Seg) (s : State) : State :=
  let t := enterState g .up .none (s.updSeg g (fun x => { x with known := false, sclHigh := true, sdaHigh := true }))
  match (t.engine g).active with
  | some _ => evaluateFailure g .busStuck t
  | none => idleEngine g t

/-- RECOVERY_PULSE: a pulse ends with the data line sampled (R83). A high line starts a stop; a low line after the 9th pulse fails the
recovery (R84). -/
def execRecoveryPulse (g : Seg) (dataHigh : Bool) (s : State) : Host.Outcome State Fault Refusal :=
  .next (onWire (fun s =>
    if (s.engine g).state = .recovery ∧ (s.engine g).recoveryStop = false then
      let t := s.updSeg g (fun x => { x with
        sclHigh := true, sdaHigh := dataHigh
        engine := { x.engine with pulses := x.engine.pulses + 1, recoveryStop := dataHigh, releaseTimer := none } })
      if dataHigh = false ∧ Config.recoveryPulses ≤ (t.engine g).pulses then enterFaulted g t else t
    else s) s)

/-- RECOVERY_STOP: the stop of a recovery rises, or it fails and the next pulse follows, or after the 9th pulse the recovery has failed
(R83, R84). -/
def execRecoveryStop (g : Seg) (rose : Bool) (s : State) : Host.Outcome State Fault Refusal :=
  .next (onWire (fun s =>
    if (s.engine g).state = .recovery ∧ (s.engine g).recoveryStop = true then
      if rose then recovered g s
      else
        let t := s.updSeg g (fun x => { x with
          sdaHigh := false, engine := { x.engine with recoveryStop := false, releaseTimer := none } })
        if Config.recoveryPulses ≤ (t.engine g).pulses then enterFaulted g t else t
    else s) s)

/-! ### Waits between attempts -/

/-- BACKOFF_TIMER_EXPIRY: the engine enters WAIT_FREE and the next attempt begins (R98, R65, R100). -/
def execBackoffTimerExpiry (g : Seg) (held : Nat) (s : State) : Host.Outcome State Fault Refusal :=
  .next (onWire (fun s =>
    if (s.engine g).state = .backoff ∧ (s.engine g).backoffTimer.isSome then beginAttempt g held s else s) s)

/-- POLL_TIMER_EXPIRY: the engine enters WAIT_FREE and the next poll read begins (R77, R65). -/
def execPollTimerExpiry (g : Seg) (held : Nat) (s : State) : Host.Outcome State Fault Refusal :=
  .next (onWire (fun s =>
    if (s.engine g).state = .pollWait ∧ (s.engine g).pollTimer.isSome then beginAttempt g held s else s) s)

/-! ### The lines -/

/-- A timer of a held clock: abandoned when the clock is seen high, started at the first report that it is low, and left running at a
later one (R63, R68, R83). -/
def clockTimer (high : Bool) (limit : Nat) (running : Timer) : Timer := if high then none else some (running.getD limit)

/-- The clock that the engine of g has released is seen low or high while it holds the bus (R63, R83): a stretch starts or ends its
timer, and a held pulse or stop of a recovery the release timer. No timer runs at a stop after OFFLINE or DEVICE_RESET (R88, R91). -/
def engineClock (high : Bool) (x : Segment) : Engine :=
  match x.engine.state with
  | .transfer =>
    match x.engine.closing with
    | .none | .mark =>
      { x.engine with stretchTimer := clockTimer high (x.config.stretchLimit.toNat * Config.ms) x.engine.stretchTimer }
    | .offline | .deviceReset => x.engine
  | .recovery => { x.engine with releaseTimer := clockTimer high Config.clockReleaseLimit x.engine.releaseTimer }
  | .idle | .waitFree | .backoff | .pollWait | .releaseWait => x.engine

/-- The clock of a segment whose engine does not hold the bus falls or rises: for an engine in WAIT_FREE with no known transfer a busy spell
begins, with its timer, or ends (R64, R68). -/
def waitingClock (high : Bool) (x : Segment) : Engine :=
  if x.engine.state = .waitFree ∧ x.known = false then
    { x.engine with busyTimer := clockTimer high (x.config.busBusyLimit.toNat * Config.ms) x.engine.busyTimer }
  else x.engine

/-- The new level of a line, with its effect on the engine's timers. In RELEASE_WAIT the rise of the clock is CLOCK_RELEASED. -/
def lineChange (line : Line) (high : Bool) (x : Segment) : Segment :=
  match line with
  | .data => { x with sdaHigh := high }
  | .clock =>
    if x.engine.state = .releaseWait then x
    else { x with sclHigh := high, engine := if x.engine.holdsBus then engineClock high x else waitingClock high x }

/-- The data line of a watched segment, outside the engine's own transfer, falls or rises while the clock is high: a start or a stop
(R62, R64). While a read is held the clock is low (R161). -/
def Segment.dataEdge (x : Segment) (line : Line) (high : Bool) : Bool :=
  match line with
  | .data => x.watched && !x.engine.controls && decide (x.ctx.phase ≠ .holding) && x.sclHigh && (x.sdaHigh != high)
  | .clock => false

/-- LINE_CHANGE_OUTSIDE_TRANSFER (R64, R68). While the engine holds the bus it is the clock that the engine has released, seen low or high
(R63). A fall of the data line with the clock high is a start, and a rise a stop (R62); any other change is recorded, in a transfer of another
controller and on a segment that is not watched too, so that the levels stand when the watch starts anew (notes/assumptions/6.md). -/
def execLineChangeOutsideTransfer (g : Seg) (line : Line) (high : Bool) (s : State) : Host.Outcome State Fault Refusal :=
  .next (if s.live ∧ (s.seg g).dataEdge line high then (if high then seeStop g s else seeStart g s)
    else s.updSeg g (lineChange line high))

end Sys2Proof.Machine
end

