-- ==== Sys2Proof/Machine/PowerEvents.lean ====
section
/-! DEFINITION. The events of the power qualifier (section 7.2): SPG_ASSERT, SPG_DEASSERT and the expiries of the settle and glitch
timers. -/

namespace Sys2Proof.Machine

/-- The qualifier records the level of SPGn (R130). -/
def recordLevel (g : Seg) (level : Bool) (s : State) : State := s.updSeg g (fun x => { x with spg := level })

/-- A reassertion during a glitch watch: the drop is ignored and counted (R134). -/
def ignoreGlitch (g : Seg) (s : State) : State :=
  s.updSeg g (fun x => { x with glitchTimer := none, glitchCount := min (x.glitchCount + 1) Config.maxGlitchCount })

/-- What an assertion of SPGn does beside its record (R131, R134, R135). -/
def assertPower (g : Seg) (s : State) : State :=
  match (s.seg g).state with
  | .dark => settleIfPowered g s
  | .up | .recovering | .faulted => if (s.seg g).glitchTimer.isSome then ignoreGlitch g s else s
  | .settling | .offline => s

/-- The glitch watch starts with the glitch window read now (R133). -/
def startGlitchWatch (g : Seg) (s : State) : State :=
  s.updSeg g (fun x => { x with glitchTimer := some (x.config.glitchWindow.toNat * Config.ms) })

/-- What a deassertion of SPGn does beside its record (R132, R133, R135). -/
def deassertPower (g : Seg) (s : State) : State :=
  match (s.seg g).state with
  | .settling => enterState g .dark (s.latched g) (stopQualifier g s)
  | .up | .recovering | .faulted => if (s.seg g).config.glitchWindow = 0 then goDark g s else startGlitchWatch g s
  | .dark | .offline => s

/-- SPG_ASSERT: a change of SPGn from deasserted to asserted; only recorded while a reset is under way (R130, R148, R149). -/
def execSpgAssert (g : Seg) (s : State) : Host.Outcome State Fault Refusal :=
  .next (if (s.seg g).spg then s else onWire (assertPower g) (recordLevel g true s))

/-- SPG_DEASSERT: a change of SPGn from asserted to deasserted. -/
def execSpgDeassert (g : Seg) (s : State) : Host.Outcome State Fault Refusal :=
  .next (if (s.seg g).spg then onWire (deassertPower g) (recordLevel g false s) else s)

/-- Segment g reaches UP: the lines are connected, the down mode becomes NONE, the bus watch begins with no known transfer, and the
context is in LISTEN (R129, R132, R64, R151). -/
def reachUp (g : Seg) (s : State) : State :=
  enterState g .up .none (s.updSeg g (fun x => { x with
    settleTimer := none, gate := .connected, known := false, ctx := RxContext.inPhase .listen }))

/-- SETTLE_TIMER_EXPIRY (R132); not taken while the timer is stopped. -/
def execSettleTimerExpiry (g : Seg) (s : State) : Host.Outcome State Fault Refusal :=
  .next (onWire (fun s => if (s.seg g).settleTimer.isSome ∧ (s.seg g).state = .settling then reachUp g s else s) s)

/-- GLITCH_TIMER_EXPIRY with SPGn still deasserted (R134); not taken while the timer is stopped. -/
def execGlitchTimerExpiry (g : Seg) (s : State) : Host.Outcome State Fault Refusal :=
  .next (onWire (fun s => if (s.seg g).glitchTimer.isSome ∧ (s.seg g).spg = false then goDark g s else s) s)

end Sys2Proof.Machine
end

