-- ==== Sys2Proof/Machine/Registers.lean ====
section
/-! DEFINITION. The register writes with a behaviour of their own, the reads that change state, the time base and the coalescing
timer: EVT, EVTEN, CTL, CQCFG, TBLO, the undefined words and the plain registers (chapters 6, 9 and 10). -/

namespace Sys2Proof.Machine

/-- A write of CTL stores the global interrupt enable and the dispatch hold; reset-busy is read-only (R173). -/
def writeCtl (v : Word) (s : State) : State :=
  s.updWin (fun w => { w with intEnable := v.getLsbD 0, dispatchHold := v.getLsbD 1 })

/-- A write of EVTEN (R173). -/
def writeEvten (v : Word) (s : State) : State := s.updEv (fun x => { x with enables := v })

/-- A write of CQCFG (R120). -/
def writeCqcfg (v : Word) (s : State) : State := s.configureQueue (v.extractLsb' 0 6) (v.extractLsb' 8 8)

/-- A read of TBLO returns the low half of the time base and captures the high half (R176). -/
def readTblo (s : State) : State :=
  (s.updWin (fun w => { w with readData := s.ev.timeBase.extractLsb' 0 16 })).updEv
    (fun x => { x with snapshot := x.timeBase.extractLsb' 16 16 })

/-- A write of a register with no behaviour of its own (R183, R179). A read-only register ignores it. -/
def writePlain (r : PlainRegister) (v : Word) (s : State) : State :=
  match r with
  | .tsel => s.updWin (fun w => { w with tselInstance := v.extractLsb' 0 6, tselTable := v.extractLsb' 8 3 })
  | .tidx => s.updWin (fun w => { w with tidxIndex := v.extractLsb' 0 6, tidxAuto := v.getLsbD 15 })
  | .cmdArg => s.updWin (fun w => { w with cmdArg := v })
  | .winId | .winRev | .cmdRes | .cqStat | .poolStat | .tStat | .tbLo | .tbHi | .mbStat | .segStat _ => s

/-- The word on LD15 to LD0 after an access to an undefined word: a read returns 0 (R180). -/
def undefinedData (a : Access) (s : State) : State :=
  match a with
  | .read => s.updWin (fun w => { w with readData := 0 })
  | .write _ => s

/-- EVT_WRITE (R171). -/
def execEvtWrite (v : Word) (s : State) : Host.Outcome State Fault Refusal := .next (onWindow (fun s => s.clearFlags v) s)

/-- EVTEN_WRITE (R173). -/
def execEvtenWrite (v : Word) (s : State) : Host.Outcome State Fault Refusal := .next (onWindow (writeEvten v) s)

/-- CTL_WRITE (R173). -/
def execCtlWrite (v : Word) (s : State) : Host.Outcome State Fault Refusal := .next (onWindow (writeCtl v) s)

/-- CQCFG_WRITE (R120). -/
def execCqcfgWrite (v : Word) (s : State) : Host.Outcome State Fault Refusal := .next (onWindow (writeCqcfg v) s)

/-- TBLO_READ (R176); 0 and no capture while a reset is under way (R188, R189). -/
def execTbloRead (s : State) : Host.Outcome State Fault Refusal :=
  .next (if s.windowOpen then readTblo s else s.updWin (fun w => { w with readData := 0 }))

/-- UNDEFINED_WORD_ACCESS (R180): WINDOW_ERROR, but not while a reset is under way. -/
def execUndefinedWordAccess (_word : Fin 8) (a : Access) (s : State) : Host.Outcome State Fault Refusal :=
  .next (undefinedData a (onWindow (fun s => s.raise .windowError) s))

/-- REGISTER_WRITE (R183). -/
def execRegisterWrite (r : PlainRegister) (v : Word) (s : State) : Host.Outcome State Fault Refusal :=
  .next (onWindow (writePlain r v) s)

/-- COALESCING_TIMER_EXPIRY (R122); it is not taken while the timer is stopped. -/
def execCoalescingTimerExpiry (s : State) : Host.Outcome State Fault Refusal :=
  .next (onWire (fun s => if s.cq.timer.isSome then s.signalQueue else s) s)

/-- TIME_BASE_COUNT (R175): it goes on through DEVICE_RESET and is held at 0 while RST# is held. -/
def execTimeBaseCount (s : State) : Host.Outcome State Fault Refusal :=
  .next (if s.rstHeld then s.updEv (fun x => { x with timeBase := 0 }) else s.updEv (fun x => { x with timeBase := x.timeBase + 1 }))

end Sys2Proof.Machine
end

