-- ==== Sys2Proof/Machine/SegmentCommands.lean ====
section
/-! DEFINITION. The commands on segments and targets: OFFLINE, ONLINE, SEGMENT_RESET and READMIT (section 7.5, section 1.5). -/

namespace Sys2Proof.Machine

/-- The engine of g after OFFLINE: it sends one stop when it holds the bus and the clock is not held low, and else releases the
lines and is IDLE (R88). -/
def closeForOffline (g : Seg) (e : Engine) (s : State) : State :=
  if e.holdsBus && !e.clockHeld then
    s.updSeg g (fun x => { x with
      known := false, gate := .connected
      engine := { state := .transfer, pos := .closingStop, address := e.address, speed := e.speed, closing := .offline } })
  else idleEngine g (releaseLines g s)

/-- OFFLINE with the down mode of its argument (R141, R142). Only a segment in UP or RECOVERING has an engine at work. -/
def offline (g : Seg) (s : State) : Reply :=
  accept
    (match (s.seg g).state with
      | .offline => s.updSeg g (fun x => { x with downMode := s.argMode })
      | .up | .recovering =>
        endContext g (enterState g .offline s.argMode
          (closeForOffline g (s.engine g) (completeActive g .segmentDown (stopQualifier g s))))
      | .dark | .settling | .faulted => enterState g .offline s.argMode (stopQualifier g s))
    g.val

/-- ONLINE (R143): DARK with the down mode of the loss policy, then SETTLING if SPGn is recorded as asserted. A stop that the engine
still sends after OFFLINE is cut off (R88). -/
def online (g : Seg) (s : State) : Reply :=
  if (s.seg g).state = .offline then
    accept (settleIfPowered g (enterState g .dark (s.latched g) (idleEngine g (releaseLines g s)))) g.val
  else refuse s .badArgument g.val

/-- Every slot of the list of g completes RESET, in list order, and the list is empty (R57). -/
def resetList (g : Seg) (s : State) : State :=
  ((s.seg g).list.foldl (fun t n => completeSlot n .reset t) s).updSeg g (fun x => { x with list := [] })

/-- The number of slots that SEGMENT_RESET completes (R144). -/
def State.workCount (s : State) (g : Seg) : Nat := (s.engine g).active.toList.length + (s.seg g).list.length

/-- The work and the condition of g are cleared (R144): lines, active slot, list, timers, glitch count and receive context. -/
def clearSegment (g : Seg) (s : State) : State :=
  endContext g ((stopQualifier g (resetList g (idleEngine g (completeActive g .reset (releaseLines g s))))).updSeg g
    (fun x => { x with glitchCount := 0 }))

/-- SEGMENT_RESET (R144). A segment that was OFFLINE stays OFFLINE with its down mode. -/
def segmentReset (g : Seg) (s : State) : Reply :=
  let t := clearSegment g s
  accept
    (if (s.seg g).state = .offline then t else settleIfPowered g (enterState g .dark (s.latched g) t))
    (s.workCount g)

/-- READMIT (R13); a valid number that names an invalid entry is refused with the entry number (R182). -/
def readmit (t : TargetId) (s : State) : Reply :=
  if (s.target t).valid then
    accept (s.updTarget t (fun e => { e with presence := .unknown, failureCount := 0 })) t.val
  else refuse s .badArgument t.val

/-- OFFLINE takes a segment out of service (R141). -/
def execOffline (s : State) : Host.Outcome State Fault Refusal :=
  .next (runCommand Command.offline.code (withNumber 6 offline) s)

/-- ONLINE returns a segment from OFFLINE (R143). -/
def execOnline (s : State) : Host.Outcome State Fault Refusal := .next (runCommand Command.online.code (withNumber 6 online) s)

/-- SEGMENT_RESET clears the work and the condition of a segment (R144). -/
def execSegmentReset (s : State) : Host.Outcome State Fault Refusal :=
  .next (runCommand Command.segmentReset.code (withNumber 6 segmentReset) s)

/-- READMIT clears what the part has learned about a target's presence (R13). -/
def execReadmit (s : State) : Host.Outcome State Fault Refusal :=
  .next (runCommand Command.readmit.code (withNumber 48 readmit) s)

end Sys2Proof.Machine
end

