-- ==== Sys2Proof/Machine/ResetEvents.lean ====
section
/-! DEFINITION. The two resets: DEVICE_RESET with its end (section 10.5, R91, R149), and RST# (section 10.6, R148). -/

namespace Sys2Proof.Machine

/-! ### DEVICE_RESET -/

/-- A segment as the event that begins DEVICE_RESET leaves it (R91, R149): its timers are abandoned, its context is in LISTEN, and an engine that
holds its bus with the clock not held low, outside RECOVERY, sends one stop; every other engine lets go at once. -/
def Segment.beginReset (x : Segment) : Segment :=
  let y := { x with settleTimer := none, glitchTimer := none, ctx := RxContext.inPhase .listen }
  if x.engine.holdsBus && !x.engine.clockHeld && decide (x.engine.state ≠ .recovery) then
    { y with engine := {
        state := .transfer, pos := .closingStop, address := x.engine.address, speed := x.engine.speed, closing := .deviceReset } }
  else { y with gate := .released, known := false, engine := {} }

/-- DEVICE_RESET begins (R187): reset-busy, every flag clear, the coalescing timer stopped (R122), every segment as above. -/
def beginDeviceReset (s : State) : State :=
  { s with
    win := { s.win with resetBusy := true }
    ev := { s.ev with flags := 0 }
    cq := { s.cq with timer := none }
    segs := mapAll Segment.beginReset s.segs }

/-- A segment as the end of DEVICE_RESET leaves it, before a powered one enters SETTLING (R149, R59, R91). -/
def Segment.endReset (x : Segment) : Segment :=
  let y := { x with
    gate := .released, known := false, settleTimer := none, glitchTimer := none, glitchCount := 0, list := [], engine := {}
    ctx := RxContext.inPhase .listen }
  if x.state = .offline then y else { y with state := .dark, downMode := x.config.lossPolicy.downMode }

/-- A target entry after DEVICE_RESET keeps its identity and its policy (R16). -/
def TargetEntry.forget (e : TargetEntry) : TargetEntry :=
  { e with presence := .unknown, failureCount := 0, refCount := 0, lastFinal := none }

/-- A DARK segment with SPGn asserted enters SETTLING (R131, R148, R149). -/
def settleDark (s : State) (g : Seg) : State := if (s.seg g).state = .dark then settleIfPowered g s else s

/-- DEVICE_RESET ends (R187): every block takes its after-reset values, then the DARK segments with power enter SETTLING (R149). -/
def endDeviceReset (s : State) : State :=
  allSegs.foldl settleDark
    { s with
      win := { s.win with
        resetBusy := false, cmd := Command.deviceReset.code, cmdResult := .done, cmdValue := 0
        tselTable := 0, tselInstance := 0, tidxIndex := 0, tidxAuto := false, tstat := .ok }
      ev := { s.ev with flags := 0 }
      cq := { s.cq with queue := [], timer := none }
      slots := Vector.replicate 32 {}
      targets := mapAll TargetEntry.forget s.targets
      segs := mapAll Segment.endReset s.segs
      boxes := Vector.replicate 4 {} }

/-! ### RST# -/

/-- A segment as RST# leaves it: only the levels on its pins stay (R148). -/
def Segment.afterRst (x : Segment) : Segment := { spg := x.spg, sclHigh := x.sclHigh, sdaHigh := x.sdaHigh }

/-- The values of RST# in every block (R15, R41, R58, R90, R125, R148, R168, R177, R189). The levels on the pins and the queue of waiting
commands are outside the part. -/
def rstValues (held : Bool) (s : State) : State :=
  { State.reset with segs := mapAll Segment.afterRst s.segs, rstHeld := held, pending := s.pending }

/-! ### The meanings -/

/-- DEVICE_RESET (R187); ignored like any command while a reset is under way (R188, R189). CMDRES takes its result when the reset ends. -/
def execDeviceReset (s : State) : Host.Outcome State Fault Refusal :=
  .next (onWindow (fun s => beginDeviceReset (storeCode Command.deviceReset.code s)) s)

/-- DEVICE_RESET_END: every engine has released its lines (R187); not taken when no DEVICE_RESET runs. -/
def execDeviceResetEnd (s : State) : Host.Outcome State Fault Refusal :=
  .next (if s.win.resetBusy ∧ s.rstHeld = false then endDeviceReset s else s)

/-- RST_ASSERT: RST# is held low (R189, R90, R148). It ends a DEVICE_RESET (R188). -/
def execRstAssert (s : State) : Host.Outcome State Fault Refusal := .next (rstValues true s)

/-- RST_END: RST# is released, and the segments with SPGn asserted enter SETTLING (R148); not taken when RST# is not held. -/
def execRstEnd (s : State) : Host.Outcome State Fault Refusal :=
  .next (if s.rstHeld then allSegs.foldl settleDark (rstValues false s) else s)

end Sys2Proof.Machine
end

