-- ==== Sys2Proof/Machine/TablePort.lean ====
section
/-! DEFINITION. The table port: which word TSEL and TIDX select (R183 to R185), the read of that word, and the writes of the
tables' own rules. -/

namespace Sys2Proof.Machine

/-- A word of a table. -/
inductive TableWord where
  | identity (t : TargetId)
  | policy (t : TargetId)
  | targetStatus (t : TargetId) (index : Nat)
  | slotStatus (n : SlotId)
  | slotField (n : SlotId) (index : Nat)
  | record (index : Nat)
  | config (g : Seg) (index : Nat)
  | glitchCount (g : Seg)
  | responder (e : EntryId) (index : Nat)
  | inbound (m : BoxId) (index : Nat)
  | outboundStatus (m : BoxId)
  | staging (m : BoxId) (index : Nat)
  deriving DecidableEq, Repr

/-- The instance i of a table of k instances, where it is one of them. -/
def instanceOf (k i : Nat) : Option (Fin k) := if h : i < k then some ⟨i, h⟩ else none

/-- The word of table id, instance i and index w; none out of range (R185, with the table of section 10.4). -/
def tableWord (id i w : Nat) : Option TableWord :=
  match id with
  | 0 => (instanceOf 48 i).bind fun t =>
      if w = 0 then some (.identity t) else if w = 1 then some (.policy t) else if w < 4 then some (.targetStatus t w) else none
  | 1 => (instanceOf 32 i).bind fun n =>
      if w = 0 then some (.slotStatus n) else if w < 21 then some (.slotField n w) else none
  | 2 => if i = 0 ∧ w < 23 then some (.record w) else none
  | 3 => (instanceOf 6 i).bind fun g =>
      if w < 3 then some (.config g w) else if w = 3 then some (.glitchCount g) else none
  | 4 => (instanceOf 4 i).bind fun e => if w < 2 then some (.responder e w) else none
  | 5 => (instanceOf 4 i).bind fun m => if w < 17 then some (.inbound m w) else none
  | 6 => (instanceOf 4 i).bind fun m =>
      if w = 0 then some (.outboundStatus m) else if w < 17 then some (.staging m w) else none
  | _ => none

/-- The word that TSEL and TIDX select. -/
def State.selected (s : State) : Option TableWord :=
  tableWord s.win.tselTable.toNat s.win.tselInstance.toNat s.win.tidxIndex.toNat

/-! ### The outcome of an access -/

/-- TSTAT takes the outcome of a TDATA access (R184). -/
def setStatus (st : TableStatus) (s : State) : State := s.updWin (fun w => { w with tstat := st })

/-- With auto-increment set, the index advances by 1 (R184). -/
def advance (s : State) : State :=
  s.updWin (fun w => { w with tidxIndex := if w.tidxAuto then w.tidxIndex + 1 else w.tidxIndex })

/-- An in-range access with an outcome that is no refusal: TSTAT and the index (R184). -/
def accepted (st : TableStatus) (s : State) : State := advance (setStatus st s)

/-- A refused in-range write: TSTAT shows the reason, TABLE_ERROR is set, and the index advances all the same (R2, R21, R184). -/
def refused (st : TableStatus) (s : State) : State := (accepted st s).raise .tableError

/-- An out-of-range access: RANGE and TABLE_ERROR, and the index stays (R185). -/
def outOfRange (s : State) : State := (setStatus .range s).raise .tableError

/-! ### Reads -/

/-- The value of a word. A word of COMPLETION_HEAD is the head record's, or 0 with the queue empty (R117). -/
def State.tableValue (s : State) : TableWord → Word
  | .identity t => (s.target t).identityWord
  | .policy t => (s.target t).policyWord
  | .targetStatus t w => if w = 2 then (s.target t).presenceWord else (s.target t).referenceWord
  | .slotStatus n => (s.slot n).word 0
  | .slotField n w => (s.slot n).word w
  | .record w =>
    match s.cq.queue with
    | n :: _ => (s.slot n).recordWord n w
    | [] => 0
  | .config g w => (s.seg g).configWord w
  | .glitchCount g => (s.seg g).configWord 3
  | .responder e w => (s.entry e).word w
  | .inbound m w => (s.box m).inWord w
  | .outboundStatus m => (s.box m).outWord 0
  | .staging m w => (s.box m).outWord w

/-- The outcome of a read of a word: EMPTY for COMPLETION_HEAD with the queue empty, else OK (R117, R184). -/
def State.readStatus (s : State) : TableWord → TableStatus
  | .record _ => if s.cq.queue.isEmpty then .empty else .ok
  | _ => .ok

/-- The word on LD15 to LD0 after a read. -/
def putData (v : Word) (s : State) : State := s.updWin (fun w => { w with readData := v })

/-- A TDATA read with the window open (R184, R185). -/
def tdataRead (s : State) : State :=
  match s.selected with
  | some w => putData (s.tableValue w) (accepted (s.readStatus w) s)
  | none => putData 0 (outOfRange s)

/-! ### Writes -/

/-- The three fields of an identity word (section 10.4). -/
structure Identity where
  valid : Bool
  segment : BitVec 3
  address : BitVec 7
  deriving DecidableEq, Repr

/-- The identity that a written word carries. -/
def Identity.ofWord (v : Word) : Identity := ⟨v.getLsbD 15, v.extractLsb' 8 3, v.extractLsb' 0 7⟩

/-- The identity that an entry holds. -/
def TargetEntry.identity (e : TargetEntry) : Identity := ⟨e.valid, e.segment, e.address⟩

/-- A segment and an address that a valid entry may hold (R4, check 2). -/
def Identity.usable (d : Identity) : Bool :=
  decide (Config.lowAddress.toNat ≤ d.address.toNat ∧ d.address.toNat ≤ Config.highAddress.toNat ∧ d.segment.toNat ≤ 5)

/-- Some other valid entry holds the segment and the address (R3, R4 check 3). -/
def State.duplicated (s : State) (t : TargetId) (d : Identity) : Bool :=
  (List.finRange 48).any (fun u =>
    decide (u ≠ t) && (s.target u).valid && decide ((s.target u).segment = d.segment ∧ (s.target u).address = d.address))

/-- The checks of an identity write, in their order; the first that fails (R4). -/
def State.identityFault (s : State) (t : TargetId) (d : Identity) : Option TableStatus :=
  if (s.target t).refCount ≠ 0 ∧ d ≠ (s.target t).identity then some .entryInUse
  else if d.valid && !d.usable then some .badAddress
  else if d.valid && s.duplicated t d then some .duplicate
  else none

/-- An accepted identity write stores the identity, and clears the learned state if a field differs (R5). -/
def storeIdentity (t : TargetId) (d : Identity) (s : State) : State :=
  if d = (s.target t).identity then s
  else s.updTarget t (fun e => { e with
    valid := d.valid, segment := d.segment, address := d.address, presence := .unknown, failureCount := 0, lastFinal := none })

/-- An identity write (R2, R4, R5). -/
def writeIdentity (t : TargetId) (v : Word) (s : State) : State :=
  match s.identityFault t (Identity.ofWord v) with
  | some st => refused st s
  | none => accepted .ok (storeIdentity t (Identity.ofWord v) s)

/-- A policy write (R6). -/
def writePolicy (t : TargetId) (v : Word) (s : State) : State :=
  accepted .ok (s.updTarget t (fun e => { e with
    retryLimit := v.extractLsb' 0 3, threshold := v.extractLsb' 4 4, speedClass := Speed.ofBit (v.getLsbD 8) }))

/-- The host-written fields of word i of a slot, 1 to 20, as a written word sets them (section 10.4). -/
def Slot.store (x : Slot) (i : Nat) (v : Word) : Slot :=
  match i with
  | 0 => x
  | 1 => { x with tag := v.extractLsb' 0 8, target := v.extractLsb' 8 6, notifyNow := v.getLsbD 15 }
  | 2 => { x with writeCount := v.extractLsb' 0 6, readCount := v.extractLsb' 6 6, kind := v.extractLsb' 12 3 }
  | 3 => { x with pollMask := v.extractLsb' 0 8, pollMatch := v.extractLsb' 8 8 }
  | 4 => { x with pollInterval := v.extractLsb' 0 8, pollLimit := v.extractLsb' 8 8 }
  | k + 5 => { x with writeList := setBufferWord x.writeList k v }

/-- A write of a host-written field: stored in a STAGED slot, else NOT_STAGED (R20, R21). -/
def writeSlotField (n : SlotId) (i : Nat) (v : Word) (s : State) : State :=
  if (s.slot n).state = .staged then accepted .ok (s.updSlot n (fun x => x.store i v)) else refused .notStaged s

/-- The configuration with word i, 0 to 2, as written; a 0 where 1 is the least value is stored as 1 (R146). -/
def SegConfig.store (c : SegConfig) (i : Nat) (v : Word) : SegConfig :=
  match i with
  | 0 => { c with
      settleTime := atLeastOne (v.extractLsb' 0 8), glitchWindow := v.extractLsb' 8 4
      lossPolicy := LossPolicy.ofBit (v.getLsbD 12), maxSpeed := Speed.ofBit (v.getLsbD 13) }
  | 1 => { c with stretchLimit := atLeastOne (v.extractLsb' 0 8), busBusyLimit := atLeastOne (v.extractLsb' 8 8) }
  | _ => { c with backoffBase := atLeastOne (v.extractLsb' 0 8) }

/-- A write of words 0 to 2 of a segment's configuration (R147). -/
def writeConfig (g : Seg) (i : Nat) (v : Word) (s : State) : State :=
  accepted .ok (s.updSeg g (fun x => { x with config := x.config.store i v }))

/-- The mailbox number of a two-bit field. -/
def boxOf (b : BitVec 2) : BoxId := ⟨b.toNat, b.isLt⟩

/-- The entry with word i, 0 or 1, as written (R150). -/
def MatchEntry.store (e : MatchEntry) (i : Nat) (v : Word) : MatchEntry :=
  match i with
  | 0 => { e with
      address := v.extractLsb' 0 7, segment := v.extractLsb' 8 3, mailbox := boxOf (v.extractLsb' 12 2)
      readHold := v.getLsbD 14, enabled := v.getLsbD 15 }
  | _ => { e with mask := v.extractLsb' 0 7, holdLimit := atLeastOne (v.extractLsb' 8 8) }

/-- A write of a word of a Responder Match Table entry (R150). -/
def writeResponder (e : EntryId) (i : Nat) (v : Word) (s : State) : State :=
  accepted .ok (s.updEntry e (fun x => x.store i v))

/-- A write of staging word i, 1 to 16 (R154). -/
def writeStaging (m : BoxId) (i : Nat) (v : Word) (s : State) : State :=
  accepted .ok (s.updBox m (fun b => { b with staging := setBufferWord b.staging (i - 1) v }))

/-- A write of a read-only word (R184). -/
def writeReadOnly (s : State) : State := refused .readOnly s

/-- A TDATA write with the window open, handed to the rule of the word selected (R184, R185). -/
def tdataWrite (v : Word) (s : State) : State :=
  match s.selected with
  | some (.identity t) => writeIdentity t v s
  | some (.policy t) => writePolicy t v s
  | some (.slotField n i) => writeSlotField n i v s
  | some (.config g i) => writeConfig g i v s
  | some (.responder e i) => writeResponder e i v s
  | some (.staging m i) => writeStaging m i v s
  | some (.targetStatus _ _) | some (.slotStatus _) | some (.record _) | some (.glitchCount _) | some (.inbound _ _)
  | some (.outboundStatus _) => writeReadOnly s
  | none => outOfRange s

/-! ### The meanings

Each write row is a write of TDATA. Its meaning is that row's rule where the selected word is the row's; where another word is
selected, the write strobe is another row's, and tdataWrite hands it there. -/

/-- TDATA_READ (R184, R185); 0 while a reset is under way (R188, R189). -/
def execTdataRead (s : State) : Host.Outcome State Fault Refusal :=
  .next (if s.windowOpen then tdataRead s else putData 0 s)

/-- TARGET_IDENTITY_WRITE (R4). -/
def execTargetIdentityWrite (v : Word) (s : State) : Host.Outcome State Fault Refusal :=
  .next (onWindow (fun s => match s.selected with
    | some (.identity t) => writeIdentity t v s
    | _ => tdataWrite v s) s)

/-- TARGET_POLICY_WRITE (R6). -/
def execTargetPolicyWrite (v : Word) (s : State) : Host.Outcome State Fault Refusal :=
  .next (onWindow (fun s => match s.selected with
    | some (.policy t) => writePolicy t v s
    | _ => tdataWrite v s) s)

/-- SLOT_FIELD_WRITE (R20, R21). -/
def execSlotFieldWrite (v : Word) (s : State) : Host.Outcome State Fault Refusal :=
  .next (onWindow (fun s => match s.selected with
    | some (.slotField n i) => writeSlotField n i v s
    | _ => tdataWrite v s) s)

/-- SEGMENT_CONFIG_WRITE (R147). -/
def execSegmentConfigWrite (v : Word) (s : State) : Host.Outcome State Fault Refusal :=
  .next (onWindow (fun s => match s.selected with
    | some (.config g i) => writeConfig g i v s
    | _ => tdataWrite v s) s)

/-- RESPONDER_ENTRY_WRITE (R150). -/
def execResponderEntryWrite (v : Word) (s : State) : Host.Outcome State Fault Refusal :=
  .next (onWindow (fun s => match s.selected with
    | some (.responder e i) => writeResponder e i v s
    | _ => tdataWrite v s) s)

/-- STAGING_BYTES_WRITE (R154). -/
def execStagingBytesWrite (v : Word) (s : State) : Host.Outcome State Fault Refusal :=
  .next (onWindow (fun s => match s.selected with
    | some (.staging m i) => writeStaging m i v s
    | _ => tdataWrite v s) s)

/-- The words that the host can never write: words 2 and 3 of a target entry, word 0 of a slot, the head record, the glitch count,
MAILBOX_IN and word 0 of MAILBOX_OUT (section 10.4). -/
def TableWord.readOnly : TableWord → Bool
  | .targetStatus _ _ | .slotStatus _ | .record _ | .glitchCount _ | .inbound _ _ | .outboundStatus _ => true
  | .identity _ | .policy _ | .slotField _ _ | .config _ _ | .responder _ _ | .staging _ _ => false

/-- READ_ONLY_TABLE_WRITE (R184). -/
def execReadOnlyTableWrite (v : Word) (s : State) : Host.Outcome State Fault Refusal :=
  .next (onWindow (fun s => match s.selected with
    | some w => if w.readOnly then writeReadOnly s else tdataWrite v s
    | none => tdataWrite v s) s)

/-- TDATA_WRITE_OUT_OF_RANGE (R185). -/
def execTdataWriteOutOfRange (v : Word) (s : State) : Host.Outcome State Fault Refusal :=
  .next (onWindow (fun s => match s.selected with
    | none => outOfRange s
    | some _ => tdataWrite v s) s)

end Sys2Proof.Machine
end

