-- ==== Sys2Proof/Machine/UnknownCommand.lean ====
section
/-! DEFINITION. A write of CMD with any code (R182), and UNKNOWN_COMMAND, the write with a code that names no command. -/

namespace Sys2Proof.Machine

/-- A write of CMD with the code of a command. -/
def writeCommand (c : Command) (s : State) : Host.Outcome State Fault Refusal :=
  match c with
  | .allocate => execAllocate s
  | .discard => execDiscard s
  | .post => execPost s
  | .abort => execAbort s
  | .retire => execRetire s
  | .flushSegment => execFlushSegment s
  | .offline => execOffline s
  | .online => execOnline s
  | .segmentReset => execSegmentReset s
  | .readmit => execReadmit s
  | .releaseInbound => execReleaseInbound s
  | .commitOutbound => execCommitOutbound s
  | .cancelOutbound => execCancelOutbound s
  | .deviceReset => execDeviceReset s

/-- UNKNOWN_COMMAND (R182): refused with returned value 0. A term whose code names a command is not well formed; the write that it spells is
that command's. -/
def execUnknownCommand (code : BitVec 8) (s : State) : Host.Outcome State Fault Refusal :=
  match Command.ofCode code with
  | none => .next (runCommand code (fun t => refuse t .unknownCommand 0) s)
  | some c => writeCommand c s

end Sys2Proof.Machine
end

