-- ==== Sys2Proof/Machine/Dispatch.lean ====
section
/-! DEFINITION. The effect of each command on everything but the queue: one arm for each row of the table of operations and events. -/

namespace Sys2Proof.Machine

def exec (i : Instr) (s : State) : Host.Outcome State Fault Refusal :=
  match i with
  | .allocate => Sys2Proof.Machine.execAllocate s
  | .discard => Sys2Proof.Machine.execDiscard s
  | .post => Sys2Proof.Machine.execPost s
  | .abort => Sys2Proof.Machine.execAbort s
  | .retire => Sys2Proof.Machine.execRetire s
  | .flushSegment => Sys2Proof.Machine.execFlushSegment s
  | .offline => Sys2Proof.Machine.execOffline s
  | .online => Sys2Proof.Machine.execOnline s
  | .segmentReset => Sys2Proof.Machine.execSegmentReset s
  | .readmit => Sys2Proof.Machine.execReadmit s
  | .releaseInbound => Sys2Proof.Machine.execReleaseInbound s
  | .commitOutbound => Sys2Proof.Machine.execCommitOutbound s
  | .cancelOutbound => Sys2Proof.Machine.execCancelOutbound s
  | .deviceReset => Sys2Proof.Machine.execDeviceReset s
  | .deviceResetEnd => Sys2Proof.Machine.execDeviceResetEnd s
  | .unknownCommand code => Sys2Proof.Machine.execUnknownCommand code s
  | .tdataRead => Sys2Proof.Machine.execTdataRead s
  | .targetIdentityWrite v => Sys2Proof.Machine.execTargetIdentityWrite v s
  | .targetPolicyWrite v => Sys2Proof.Machine.execTargetPolicyWrite v s
  | .slotFieldWrite v => Sys2Proof.Machine.execSlotFieldWrite v s
  | .segmentConfigWrite v => Sys2Proof.Machine.execSegmentConfigWrite v s
  | .responderEntryWrite v => Sys2Proof.Machine.execResponderEntryWrite v s
  | .stagingBytesWrite v => Sys2Proof.Machine.execStagingBytesWrite v s
  | .readOnlyTableWrite v => Sys2Proof.Machine.execReadOnlyTableWrite v s
  | .evtWrite v => Sys2Proof.Machine.execEvtWrite v s
  | .evtenWrite v => Sys2Proof.Machine.execEvtenWrite v s
  | .ctlWrite v => Sys2Proof.Machine.execCtlWrite v s
  | .cqcfgWrite v => Sys2Proof.Machine.execCqcfgWrite v s
  | .tbloRead => Sys2Proof.Machine.execTbloRead s
  | .undefinedWordAccess w a => Sys2Proof.Machine.execUndefinedWordAccess w a s
  | .registerWrite r v => Sys2Proof.Machine.execRegisterWrite r v s
  | .rstAssert => Sys2Proof.Machine.execRstAssert s
  | .rstEnd => Sys2Proof.Machine.execRstEnd s
  | .spgAssert g => Sys2Proof.Machine.execSpgAssert g s
  | .spgDeassert g => Sys2Proof.Machine.execSpgDeassert g s
  | .settleTimerExpiry g => Sys2Proof.Machine.execSettleTimerExpiry g s
  | .glitchTimerExpiry g => Sys2Proof.Machine.execGlitchTimerExpiry g s
  | .headEvaluation g held => Sys2Proof.Machine.execHeadEvaluation g held s
  | .engineStart g => Sys2Proof.Machine.execEngineStart g s
  | .busyTimerExpiry g => Sys2Proof.Machine.execBusyTimerExpiry g s
  | .stuckDetected g => Sys2Proof.Machine.execStuckDetected g s
  | .engineAddressByte g ack => Sys2Proof.Machine.execEngineAddressByte g ack s
  | .engineWriteByte g ack => Sys2Proof.Machine.execEngineWriteByte g ack s
  | .engineReadByte g b => Sys2Proof.Machine.execEngineReadByte g b s
  | .closingStop g => Sys2Proof.Machine.execClosingStop g s
  | .stopFailed g => Sys2Proof.Machine.execStopFailed g s
  | .markCloseStop g => Sys2Proof.Machine.execMarkCloseStop g s
  | .offlineCloseStop g => Sys2Proof.Machine.execOfflineCloseStop g s
  | .arbitrationLost g => Sys2Proof.Machine.execArbitrationLost g s
  | .stretchTimerExpiry g => Sys2Proof.Machine.execStretchTimerExpiry g s
  | .clockReleased g => Sys2Proof.Machine.execClockReleased g s
  | .releaseTimerExpiry g => Sys2Proof.Machine.execReleaseTimerExpiry g s
  | .recoveryPulse g dataHigh => Sys2Proof.Machine.execRecoveryPulse g dataHigh s
  | .recoveryStop g rose => Sys2Proof.Machine.execRecoveryStop g rose s
  | .backoffTimerExpiry g held => Sys2Proof.Machine.execBackoffTimerExpiry g held s
  | .pollTimerExpiry g held => Sys2Proof.Machine.execPollTimerExpiry g held s
  | .coalescingTimerExpiry => Sys2Proof.Machine.execCoalescingTimerExpiry s
  | .remoteStart g => Sys2Proof.Machine.execRemoteStart g s
  | .remoteAddressByte g b => Sys2Proof.Machine.execRemoteAddressByte g b s
  | .remoteWriteByte g b => Sys2Proof.Machine.execRemoteWriteByte g b s
  | .remoteReadByte g ack => Sys2Proof.Machine.execRemoteReadByte g ack s
  | .remoteStop g => Sys2Proof.Machine.execRemoteStop g s
  | .remoteRepeatedStart g => Sys2Proof.Machine.execRemoteRepeatedStart g s
  | .holdTimerExpiry g => Sys2Proof.Machine.execHoldTimerExpiry g s
  | .lineChangeOutsideTransfer g l high => Sys2Proof.Machine.execLineChangeOutsideTransfer g l high s
  | .timeBaseCount => Sys2Proof.Machine.execTimeBaseCount s
  | .tdataWriteOutOfRange v => Sys2Proof.Machine.execTdataWriteOutOfRange v s

end Sys2Proof.Machine
end

