-- ==== Sys2Proof/Machine/HostBus.lean ====
section
/-! DEFINITION. The accesses of the host (R179): the word of the window that LA5 to LA1 select, the row of the table that a strobe on it is,
and the data that a read strobe puts on the lines. -/

namespace Sys2Proof.Machine

/-- A word of the window: a register that holds a word, TDATA, or an undefined word (section 10.2). -/
inductive WindowWord where
  | register (r : Register)
  | tdata
  | undefined (word : Fin 8)
  deriving DecidableEq, Repr

/-- The word that LA5 to LA1 select: they carry the byte offset divided by two (R179, the register map). -/
def windowWord (la : BitVec 5) : WindowWord :=
  match la.toNat with
  | 0 => .register .winId
  | 1 => .register .winRev
  | 2 => .register .ctl
  | 3 => .register .cmd
  | 4 => .register .cmdArg
  | 5 => .register .cmdRes
  | 6 => .register .evt
  | 7 => .register .evtEn
  | 8 => .register .cqStat
  | 9 => .register .cqCfg
  | 10 => .register .poolStat
  | 11 => .register .tsel
  | 12 => .register .tidx
  | 13 => .tdata
  | 14 => .register .tStat
  | 15 => .register .tbLo
  | 16 => .register .tbHi
  | 17 => .register (.segStat 0)
  | 18 => .register (.segStat 1)
  | 19 => .register (.segStat 2)
  | 20 => .register (.segStat 3)
  | 21 => .register (.segStat 4)
  | 22 => .register (.segStat 5)
  | 23 => .register .mbStat
  | n => .undefined ⟨n % 8, Nat.mod_lt n (by decide)⟩

/-- The row of a command. -/
def commandInstr : Command → Instr
  | .allocate => .allocate
  | .discard => .discard
  | .post => .post
  | .abort => .abort
  | .retire => .retire
  | .flushSegment => .flushSegment
  | .offline => .offline
  | .online => .online
  | .segmentReset => .segmentReset
  | .readmit => .readmit
  | .releaseInbound => .releaseInbound
  | .commitOutbound => .commitOutbound
  | .cancelOutbound => .cancelOutbound
  | .deviceReset => .deviceReset

/-- The row that a write of CMD with a code is (R182). -/
def cmdWrite (code : BitVec 8) : Instr :=
  match Command.ofCode code with
  | some c => commandInstr c
  | none => .unknownCommand code

/-- The row that a write of a register is. -/
def registerWriteRow (r : Register) (v : Word) : Instr :=
  match r with
  | .ctl => .ctlWrite v
  | .cmd => cmdWrite (v.extractLsb' 0 8)
  | .cmdArg => .registerWrite .cmdArg v
  | .evt => .evtWrite v
  | .evtEn => .evtenWrite v
  | .cqCfg => .cqcfgWrite v
  | .tsel => .registerWrite .tsel v
  | .tidx => .registerWrite .tidx v
  | .winId => .registerWrite .winId v
  | .winRev => .registerWrite .winRev v
  | .cmdRes => .registerWrite .cmdRes v
  | .cqStat => .registerWrite .cqStat v
  | .poolStat => .registerWrite .poolStat v
  | .tStat => .registerWrite .tStat v
  | .tbLo => .registerWrite .tbLo v
  | .tbHi => .registerWrite .tbHi v
  | .mbStat => .registerWrite .mbStat v
  | .segStat g => .registerWrite (.segStat g) v

/-- The row that a write of TDATA is, by the word that TSEL and TIDX select (R184, R185). -/
def tdataWriteRow (selected : Option TableWord) (v : Word) : Instr :=
  match selected with
  | some (.identity _) => .targetIdentityWrite v
  | some (.policy _) => .targetPolicyWrite v
  | some (.slotField _ _) => .slotFieldWrite v
  | some (.config _ _) => .segmentConfigWrite v
  | some (.responder _ _) => .responderEntryWrite v
  | some (.staging _ _) => .stagingBytesWrite v
  | some (.targetStatus _ _) | some (.slotStatus _) | some (.record _) | some (.glitchCount _) | some (.inbound _ _)
  | some (.outboundStatus _) => .readOnlyTableWrite v
  | none => .tdataWriteOutOfRange v

/-- The row that a read of a word is; a read of any other word changes no state and has no row (R179). -/
def readRow (w : WindowWord) : Option Instr :=
  match w with
  | .tdata => some .tdataRead
  | .register .tbLo => some .tbloRead
  | .register _ => none
  | .undefined u => some (.undefinedWordAccess u .read)

/-- The row that a write of a word is. -/
def writeRow (w : WindowWord) (v : Word) (s : State) : Instr :=
  match w with
  | .register r => registerWriteRow r v
  | .tdata => tdataWriteRow s.selected v
  | .undefined u => .undefinedWordAccess u (.write v)

/-- The row that a strobe of LRD# or LWR# is, with LCS# asserted or not: a strobe made while LCS# is deasserted is no access (R179). -/
def strobeRow (selected : Bool) (la : BitVec 5) (a : Access) (s : State) : Option Instr :=
  if selected then
    match a with
    | .read => readRow (windowWord la)
    | .write v => some (writeRow (windowWord la) v s)
  else none

/-- The word of TDATA at the moment of a read; 0 out of range and while a reset is under way (R184, R185, R188, R189). -/
def State.tdataWord (s : State) : Word :=
  if s.windowOpen then
    match s.selected with
    | some w => s.tableValue w
    | none => 0
  else 0

/-- The word that a read strobe puts on LD15 to LD0, the value at the moment of the strobe (R179, R180); none where it is no access. -/
def strobeData (selected : Bool) (la : BitVec 5) (s : State) : Option Word :=
  if selected then
    match windowWord la with
    | .register r => some (s.readRegister r)
    | .tdata => some s.tdataWord
    | .undefined _ => some 0
  else none

/-- A strobe of the host. An access is one event and completes within the strobe that makes it, so its row goes to the front of the
queue (R179). -/
def State.strobe (selected : Bool) (la : BitVec 5) (a : Access) (s : State) : State :=
  match strobeRow selected la a s with
  | some i => { s with pending := i :: s.pending }
  | none => s

end Sys2Proof.Machine
end

