-- ==== Sys2Proof/Safety.lean ====
section
/-! DEFINITION. What holds of the block in every state that it can reach: the invariants of its identities, its work, its queue, its
segments and its mailboxes, in the terms that claims use. Each is a proposition over plain data. -/

namespace Sys2Proof.Safety

open Sys2Proof.Machine

/-- Every valid entry holds a usable address and segment, and no two valid entries hold the same (R3, R4). -/
structure IdentityInv (s : State) : Prop where
  usable : ∀ t : TargetId, (s.target t).valid = true → (s.target t).identity.usable = true
  unique : ∀ t u : TargetId, t ≠ u → (s.target t).valid = true → (s.target u).valid = true →
    ¬ ((s.target t).segment = (s.target u).segment ∧ (s.target t).address = (s.target u).address)

/-- A slot that a segment's list or engine has in hand. -/
abbrev posted (x : Slot) : Prop := x.state = .pending ∨ x.state = .active

/-- The number of PENDING and ACTIVE slots whose target field names entry t (R10). -/
def postedCount (s : State) (t : TargetId) : Nat :=
  allSlots.countP (fun n =>
    (decide ((s.slot n).state = .pending) || decide ((s.slot n).state = .active)) && decide ((s.slot n).target.toNat = t.val))

/-- The slots are where their states say: DONE slots in the queue once each, PENDING slots in their own segment's list once each, and an
active slot of an engine is ACTIVE on its segment, and while no DEVICE_RESET runs every ACTIVE slot is its engine's (R43, R48, R61, R110). -/
structure WorkInv (s : State) : Prop where
  queued : ∀ n : SlotId, n ∈ s.cq.queue ↔ (s.slot n).state = .done
  queuedOnce : s.cq.queue.Nodup
  listed : ∀ (g : Seg) (n : SlotId), n ∈ (s.seg g).list ↔ (s.slot n).state = .pending ∧ (s.slot n).segment = g
  listedOnce : ∀ g : Seg, (s.seg g).list.Nodup
  engaged : ∀ (g : Seg) (n : SlotId), (s.engine g).active = some n → (s.slot n).state = .active ∧ (s.slot n).segment = g
  active : s.win.resetBusy = false → ∀ n : SlotId, (s.slot n).state = .active → (s.engine (s.slot n).segment).active = some n

/-- The reference count of an entry is the number of posted slots that name it, and a posted slot names a valid entry on its own segment
(R10, R23, R28). -/
structure ReferenceInv (s : State) : Prop where
  counted : ∀ t : TargetId, (s.target t).refCount = postedCount s t
  named : ∀ n : SlotId, posted (s.slot n) →
    ∃ t : TargetId, s.targetIndex n = some t ∧ (s.target t).valid = true ∧ (s.target t).segment.toNat = (s.slot n).segment.val

/-- The coalescing threshold is stored in its range; while no DEVICE_RESET runs, CQ_READY is set whenever the depth is at least the threshold
(R123), and the coalescing timer runs exactly while the delay is nonzero, the queue non-empty and the flag clear (R122); while one runs, the
timer is stopped. -/
structure SignalInv (s : State) : Prop where
  range : 1 ≤ s.cq.threshold.toNat ∧ s.cq.threshold.toNat ≤ 32
  signalled : s.win.resetBusy = false → 1 ≤ s.depth → s.cq.threshold.toNat ≤ s.depth → s.flag .cqReady = true
  timed : s.win.resetBusy = false →
    (s.cq.timer.isSome = true ↔ s.cq.delay ≠ 0 ∧ s.cq.queue ≠ [] ∧ s.flag .cqReady = false)
  stopped : s.win.resetBusy = true → s.cq.timer = none

/-- The engine's timers and its closing belong to its states (the table of section 4.1), IDLE holds nothing (R61), and no stretch timer runs
at a stop after OFFLINE or for DEVICE_RESET (R88, R91). -/
structure EngineInv (e : Engine) : Prop where
  idle : e.state = .idle → e = {}
  waits : e.state = .waitFree ∨ e.state = .backoff ∨ e.state = .pollWait → e.active.isSome = true
  busy : e.busyTimer.isSome = true → e.state = .waitFree
  stretch : e.stretchTimer.isSome = true → e.state = .transfer
  release : e.releaseTimer.isSome = true → e.state = .releaseWait ∨ e.state = .recovery
  releaseRuns : e.state = .releaseWait → e.releaseTimer.isSome = true
  backoff : e.backoffTimer.isSome = true ↔ e.state = .backoff
  poll : e.pollTimer.isSome = true ↔ e.state = .pollWait
  closes : e.closing ≠ .none → e.active = none ∧ (e.state = .transfer ∨ e.state = .releaseWait)
  closesAtOnce : e.closing = .offline ∨ e.closing = .deviceReset → e.state = .transfer
  closesUntimed : e.closing = .offline ∨ e.closing = .deviceReset → e.stretchTimer = none
  slotless : e.state = .transfer ∨ e.state = .releaseWait → e.active = none → e.closing ≠ .none

/-- A segment in service. -/
abbrev inService (x : Segment) : Prop := x.state = .up ∨ x.state = .recovering

/-- What the state of a segment says of its timers, power, down mode, gate, engine and context while no DEVICE_RESET runs (R127 to R135,
R50, R128, R151). -/
structure SegmentInv (x : Segment) : Prop where
  settling : x.settleTimer.isSome = true ↔ x.state = .settling
  dark : x.state = .dark → x.spg = false
  settlingPowered : x.state = .settling → x.spg = true
  watch : x.glitchTimer.isSome = true ↔ (inService x ∨ x.state = .faulted) ∧ x.spg = false
  noMode : x.downMode = .none ↔ inService x
  faulted : x.state = .faulted → x.downMode = .flushing
  gate : x.gate = .connected ↔ inService x ∨ x.state = .offline ∧ x.engine.closing = .offline
  recovering : x.state = .recovering ↔ x.engine.state = .recovery
  atWork : x.engine.state ≠ .idle → inService x ∨ x.state = .offline ∧ x.engine.closing = .offline
  closing : x.engine.closing ≠ .deviceReset ∧ (x.engine.closing = .offline → x.state = .offline)
  known : x.known = true → inService x
  listens : x.ctx.phase ≠ .listen → x.state = .up
  alongside : x.engine.state = .transfer ∨ x.engine.state = .releaseWait →
    x.ctx.phase = .listen ∨ x.ctx.phase = .address ∨ x.ctx.phase = .unaddressed

/-- Every segment's engine is in order and an OFFLINE segment has a down mode (R50), and while no reset is under way every segment is in
order. -/
structure PowerInv (s : State) : Prop where
  engines : ∀ g : Seg, EngineInv (s.engine g)
  offline : ∀ g : Seg, (s.seg g).state = .offline → (s.seg g).downMode ≠ .none
  segments : s.rstHeld = false → s.win.resetBusy = false → ∀ g : Seg, SegmentInv (s.seg g)

/-- The lengths of a mailbox lie in their ranges (R154). -/
structure BoxInv (b : Mailbox) : Prop where
  inLength : b.inLength ≤ 32
  inEmpty : b.inState = .empty → b.inLength = 0
  inFull : b.inState = .full → 1 ≤ b.inLength
  outLength : b.outLength ≤ 32
  outEmpty : b.outState = .empty → b.outLength = 0
  outLoaded : b.outState ≠ .empty → 1 ≤ b.outLength
  lastRead : b.lastRead ≤ 32

/-- A context writes into mailbox m. -/
abbrev writesTo (c : RxContext) (m : BoxId) : Prop := c.phase = .writing ∧ c.mailbox = m

/-- A context reads from the buffer of mailbox m. -/
abbrev readsFrom (c : RxContext) (m : BoxId) : Prop := c.phase = .reading ∧ c.fill = false ∧ c.mailbox = m

/-- A context holds a read on mailbox m. -/
abbrev holdsOn (c : RxContext) (m : BoxId) : Prop := c.phase = .holding ∧ c.mailbox = m

/-- The mailboxes are in their ranges, and each serves at most one remote write, one remote read and one held read: a context that writes has its
mailbox FILLING, a context that reads has it SENDING, a context that holds a read has it EMPTY, and no second context does the same (R155, R158).
While no DEVICE_RESET runs, a FILLING or SENDING buffer has such a context. -/
structure MailboxInv (s : State) : Prop where
  ranges : ∀ m : BoxId, BoxInv (s.box m)
  writing : ∀ (g : Seg) (m : BoxId), writesTo (s.ctx g) m → (s.box m).inState = .filling
  reading : ∀ (g : Seg) (m : BoxId), readsFrom (s.ctx g) m → (s.box m).outState = .sending ∧ (s.ctx g).count ≤ (s.box m).outLength
  holding : ∀ (g : Seg) (m : BoxId), holdsOn (s.ctx g) m → (s.box m).outState = .empty
  oneWriter : ∀ (g h : Seg) (m : BoxId), writesTo (s.ctx g) m → writesTo (s.ctx h) m → g = h
  oneReader : ∀ (g h : Seg) (m : BoxId), readsFrom (s.ctx g) m → readsFrom (s.ctx h) m → g = h
  oneHolder : ∀ (g h : Seg) (m : BoxId), holdsOn (s.ctx g) m → holdsOn (s.ctx h) m → g = h
  filled : s.win.resetBusy = false → ∀ m : BoxId, (s.box m).inState = .filling → ∃ g : Seg, writesTo (s.ctx g) m
  sent : s.win.resetBusy = false → ∀ m : BoxId, (s.box m).outState = .sending → ∃ g : Seg, readsFrom (s.ctx g) m
  holdTimer : ∀ g : Seg, (s.ctx g).holdTimer.isSome = true ↔ (s.ctx g).phase = .holding

/-- A posted slot still meets the checks that its POST passed (R35, R36), and its polls used stay below its poll limit (R103). -/
structure DescriptorInv (x : Slot) (k : Kind) : Prop where
  kind : Kind.ofCode x.kind = some k
  lengths : lengthsFit k x.writeCount.toNat x.readCount.toNat = true
  polls : k = .poll → x.pollsUsed < x.pollLimit.toNat

/-- The bytes of a slot that an attempt at a byte position has taken and stored (R65, R70 to R74). A position at which a read byte comes
next lies within the read count, or within the count byte of a BLOCK_READ. -/
def progressAt (x : Slot) : BytePos → Prop
  | .address => x.bytesAccepted = 0 ∧ x.readData = []
  | .writeByte i => i < x.writeCount.toNat ∧ x.bytesAccepted = i ∧ x.readData = []
  | .secondAddress =>
    x.readData = [] ∧
      (Kind.ofCode x.kind = some .writeRead ∨ Kind.ofCode x.kind = some .blockRead ∨ Kind.ofCode x.kind = some .poll)
  | .readByte i =>
    x.readData.length = i ∧
      match Kind.ofCode x.kind with
      | some .blockRead => i = 0 ∨ (i ≤ (x.readData.headD 0).toNat ∧ (x.readData.headD 0).toNat < 32)
      | some .poll => i = 0
      | _ => i < x.readCount.toNat
  | .none | .closingStop => True

/-- What the engine of an active slot has done of its attempt (R65, R70 to R74). -/
structure ProgressInv (x : Slot) (e : Engine) : Prop where
  waits : e.state = .waitFree → e.pos = .address ∧ progressAt x .address
  sends : e.state = .transfer → e.closing = .none → progressAt x e.pos

/-- The counts of a slot, of an entry and of a segment lie in their ranges (R9, R30, R31, R130): no record shows more than 8 failures, 255 polls
used, 32 bytes accepted or 32 bytes read, and a slot that is still posted has at most 7 failures (R98, R100). The last three ranges stand on
what a posted slot and an attempt in progress keep. -/
structure CountInv (s : State) : Prop where
  failures : ∀ n : SlotId, (s.slot n).failures ≤ 8
  postedFailures : ∀ n : SlotId, posted (s.slot n) → (s.slot n).failures ≤ 7
  pollsUsed : ∀ n : SlotId, (s.slot n).pollsUsed ≤ 255
  bytesAccepted : ∀ n : SlotId, (s.slot n).bytesAccepted ≤ 32
  readData : ∀ n : SlotId, (s.slot n).readData.length ≤ 32
  descriptor : ∀ n : SlotId, posted (s.slot n) → ∃ k : Kind, DescriptorInv (s.slot n) k
  progress : ∀ (g : Seg) (n : SlotId), (s.engine g).active = some n → ProgressInv (s.slot n) (s.engine g)
  failureCount : ∀ t : TargetId, (s.target t).failureCount ≤ 15
  glitchCount : ∀ g : Seg, (s.seg g).glitchCount ≤ 255

end Sys2Proof.Safety
end

