-- ==== Sys2Proof/Claims.lean ====
section
/-! DEFINITION. The words of the statements: what a command leaves in CMDRES, what a completion, an evaluation or a departure leaves in the
state, and the conditions under which they happen, each written from its rule over two plain states, before and after. -/

namespace Sys2Proof.Claims

open Sys2Proof.Machine Sys2Proof.Safety

/-! ### The window -/

/-- The Host Window after a command of a code has been answered with a result and a returned value (R182). -/
def answered (s : State) (code : BitVec 8) (r : CmdResult) (value : Nat) : Window :=
  { s.win with cmd := code, cmdResult := r, cmdValue := BitVec.ofNat 8 value }

/-- Exactly the flags of a list are set beside those that were set, and nothing else of the Event Unit changes (R170). -/
def Raises (s t : State) (fs : List EventFlag) : Prop :=
  t.ev = { s.ev with flags := t.ev.flags } ∧ ∀ e : EventFlag, t.flag e = true ↔ s.flag e = true ∨ e ∈ fs

/-- A command that was refused: its result and returned value, CMD_ERROR, and nothing else (R182). -/
def RefusedWith (s t : State) (code : BitVec 8) (r : CmdResult) (value : Nat) : Prop :=
  t.win = answered s code r value ∧ Raises s t [.cmdError] ∧ t = { s with win := t.win, ev := t.ev }

/-- The commands that take a number in CMDARG, with their codes and the number of units they may name (section 10.3). -/
def numbered : List (Instr × BitVec 8 × Nat) :=
  [(.discard, 0x02#8, 32), (.post, 0x03#8, 32), (.abort, 0x04#8, 32), (.flushSegment, 0x06#8, 6), (.offline, 0x10#8, 6),
   (.online, 0x11#8, 6), (.segmentReset, 0x12#8, 6), (.readmit, 0x18#8, 48), (.releaseInbound, 0x20#8, 4),
   (.commitOutbound, 0x21#8, 4), (.cancelOutbound, 0x22#8, 4)]

/-- The fourteen codes of the commands (section 10.3). -/
def commandCodes : List (BitVec 8) :=
  [0x01#8, 0x02#8, 0x03#8, 0x04#8, 0x05#8, 0x06#8, 0x10#8, 0x11#8, 0x12#8, 0x18#8, 0x20#8, 0x21#8, 0x22#8, 0x5A#8]

/-- The rows that are writes of the window. -/
def windowWrite : Instr → Bool
  | .allocate | .discard | .post | .abort | .retire | .flushSegment | .offline | .online | .segmentReset | .readmit
  | .releaseInbound | .commitOutbound | .cancelOutbound | .deviceReset | .unknownCommand _ | .targetIdentityWrite _
  | .targetPolicyWrite _ | .slotFieldWrite _ | .segmentConfigWrite _ | .responderEntryWrite _ | .stagingBytesWrite _
  | .readOnlyTableWrite _ | .tdataWriteOutOfRange _ | .evtWrite _ | .evtenWrite _ | .ctlWrite _ | .cqcfgWrite _
  | .undefinedWordAccess _ (.write _) | .registerWrite _ _ => true
  | _ => false

/-- The rows that are reads of the window with an effect of their own. -/
def windowRead : Instr → Bool
  | .tdataRead | .tbloRead | .undefinedWordAccess _ .read => true
  | _ => false

/-- The rows that are events of the dispatch, the engines, the Responder and their timers. -/
def segmentEvent : Instr → Bool
  | .settleTimerExpiry _ | .glitchTimerExpiry _ | .headEvaluation _ _ | .engineStart _ | .busyTimerExpiry _ | .stuckDetected _
  | .engineAddressByte _ _ | .engineWriteByte _ _ | .engineReadByte _ _ | .closingStop _ | .stopFailed _ | .markCloseStop _
  | .offlineCloseStop _ | .arbitrationLost _ | .stretchTimerExpiry _ | .clockReleased _ | .releaseTimerExpiry _
  | .recoveryPulse _ _ | .recoveryStop _ _ | .backoffTimerExpiry _ _ | .pollTimerExpiry _ _ | .coalescingTimerExpiry
  | .remoteStart _ | .remoteAddressByte _ _ | .remoteWriteByte _ _ | .remoteReadByte _ _ | .remoteStop _
  | .remoteRepeatedStart _ | .holdTimerExpiry _ => true
  | _ => false

/-! ### Slots -/

/-- A slot as ALLOCATE leaves it (R33). -/
def freshSlot : Slot where
  state := .staged
  tag := 0
  kind := 0
  target := 0
  notifyNow := false
  writeCount := 0
  writeList := Vector.replicate 32 0
  readCount := 0
  pollMask := 0
  pollMatch := 0
  pollInterval := 0
  pollLimit := 0
  segment := 0
  mark := .none
  failures := 0
  pollsUsed := 0
  bytesAccepted := 0
  readData := []
  outcome := .none
  completionTime := 0

/-- The ranges of the write count and the read count of a kind (R36). -/
abbrev LengthRule (k : Kind) (writeCount readCount : Nat) : Prop :=
  match k with
  | .write => 1 ≤ writeCount ∧ writeCount ≤ 32 ∧ readCount = 0
  | .read => writeCount = 0 ∧ 1 ≤ readCount ∧ readCount ≤ 32
  | .writeRead => 1 ≤ writeCount ∧ writeCount ≤ 32 ∧ 1 ≤ readCount ∧ readCount ≤ 32
  | .probe => writeCount = 0 ∧ readCount = 0
  | .blockRead => writeCount ≤ 32
  | .poll => 1 ≤ writeCount ∧ writeCount ≤ 32 ∧ readCount = 0

/-- Check 2 of R35: the kind code is that of k, 1 for WRITE to 6 for POLL. -/
abbrev HasKind (x : Slot) (k : Kind) : Prop :=
  x.kind.toNat = match k with
    | .write => 1
    | .read => 2
    | .writeRead => 3
    | .probe => 4
    | .blockRead => 5
    | .poll => 6

/-- Check 3 of R35: the target field names the valid entry k. -/
abbrev NamesEntry (s : State) (n : SlotId) (k : TargetId) : Prop :=
  (s.slot n).target.toNat = k.val ∧ (s.target k).valid = true

/-- Check 5 of R35. -/
abbrev PollRule (x : Slot) (k : Kind) : Prop := k = .poll → x.pollInterval ≠ 0 ∧ x.pollLimit ≠ 0

/-- Slot n is STAGED and passes every check of POST, for kind, target entry and segment (R35). -/
abbrev Postable (s : State) (n : SlotId) (kind : Kind) (k : TargetId) (g : Seg) : Prop :=
  (s.slot n).state = .staged ∧ HasKind (s.slot n) kind ∧ NamesEntry s n k ∧ (s.target k).segment.toNat = g.val ∧
    LengthRule kind (s.slot n).writeCount.toNat (s.slot n).readCount.toNat ∧ PollRule (s.slot n) kind

/-- The descriptor part of a slot with what an accepted POST writes (R37). -/
def postedSlot (x : Slot) (g : Seg) : Slot :=
  { x with
    segment := g, mark := .none, failures := 0, pollsUsed := 0, bytesAccepted := 0, readData := [], outcome := .none }

/-- A segment that is down in FLUSHING mode (R46, check 3). -/
abbrev downAndFlushing (x : Segment) : Prop :=
  x.downMode = .flushing ∧ (x.state = .dark ∨ x.state = .settling ∨ x.state = .offline ∨ x.state = .faulted)

/-! ### Completion -/

/-- The record of slot n sets CQ_READY as it is appended (R121). -/
abbrev SignalsAtOnce (s : State) (n : SlotId) : Prop :=
  (s.slot n).notifyNow = true ∨ s.cq.threshold.toNat ≤ s.cq.queue.length + 1

/-- From s to t, the record of slot n has joined the tail of the queue, and CQ_READY and the coalescing timer follow (R121, R122). -/
structure Appends (s t : State) (n : SlotId) : Prop where
  queue : t.cq = { s.cq with queue := s.cq.queue ++ [n], timer := t.cq.timer }
  ready : t.flag .cqReady = true ↔ s.flag .cqReady = true ∨ SignalsAtOnce s n
  signalled : SignalsAtOnce s n → t.cq.timer = none
  started : ¬ SignalsAtOnce s n → s.cq.queue = [] → s.flag .cqReady = false → s.cq.delay ≠ 0 →
    t.cq.timer = some (s.cq.delay.toNat * 100)
  kept : ¬ SignalsAtOnce s n → (s.cq.queue ≠ [] ∨ s.flag .cqReady = true ∨ s.cq.delay = 0) → t.cq.timer = s.cq.timer

/-- The records of a list of slots set CQ_READY as they are appended, one after the other: one of them has notify-now, or the depth reaches the
threshold with the last of them (R121). -/
abbrev SomeSignals (s : State) (ns : List SlotId) : Prop :=
  ns ≠ [] ∧ ((∃ n ∈ ns, (s.slot n).notifyNow = true) ∨ s.cq.threshold.toNat ≤ s.cq.queue.length + ns.length)

/-- From s to t, the records of a list of slots have joined the tail of the queue in the order of the list, and CQ_READY and the coalescing timer
follow: a record that sets the flag leaves the timer stopped, and where none does, the first record of an empty queue starts it (R111, R121,
R122). -/
structure AppendsAll (s t : State) (ns : List SlotId) : Prop where
  queue : t.cq = { s.cq with queue := s.cq.queue ++ ns, timer := t.cq.timer }
  ready : t.flag .cqReady = true ↔ s.flag .cqReady = true ∨ SomeSignals s ns
  signalled : SomeSignals s ns → t.cq.timer = none
  started : ¬ SomeSignals s ns → ns ≠ [] → s.cq.queue = [] → s.flag .cqReady = false → s.cq.delay ≠ 0 →
    t.cq.timer = some (s.cq.delay.toNat * 100)
  kept : ¬ SomeSignals s ns → (ns = [] ∨ s.cq.queue ≠ [] ∨ s.flag .cqReady = true ∨ s.cq.delay = 0) → t.cq.timer = s.cq.timer

/-- From s to t, slot n has become DONE with a status (R39): x and e are the slot and its target entry as the same event has left them
otherwise. The slot keeps its counts and gets its outcome and completion time, the entry's reference count falls by 1 and its last final
status is written (R10, R11), and the record joins the queue. No other slot and no other entry changes. -/
structure Completes (s t : State) (n : SlotId) (x : Slot) (e : TargetEntry) (st : Status) : Prop extends Appends s t n where
  slot : t.slot n = { x with state := .done, outcome := .completed st, completionTime := s.ev.timeBase }
  slots : ∀ m : SlotId, m ≠ n → t.slot m = s.slot m
  entry : ∀ k : TargetId, s.targetIndex n = some k → t.target k = { e with refCount := e.refCount - 1, lastFinal := some st }
  entries : ∀ k : TargetId, s.targetIndex n ≠ some k → t.target k = s.target k

/-- The flags of a list are set beside those that were set, CQ_READY apart, and nothing else of the Event Unit changes. -/
def RaisesBesideReady (s t : State) (fs : List EventFlag) : Prop :=
  t.ev = { s.ev with flags := t.ev.flags } ∧ ∀ e : EventFlag, e ≠ .cqReady → (t.flag e = true ↔ s.flag e = true ∨ e ∈ fs)

/-- Nothing of the slots, the Target Table, the Completion Queue and CQ_READY changes. -/
def KeepsWork (s t : State) : Prop :=
  t.slots = s.slots ∧ t.targets = s.targets ∧ t.cq = s.cq ∧ t.flag .cqReady = s.flag .cqReady

/-- Segment g alone changes, to x. -/
def OnlySegment (s t : State) (g : Seg) (x : Segment) : Prop := t.seg g = x ∧ ∀ h : Seg, h ≠ g → t.seg h = s.seg h

/-! ### Engines -/

/-- The engine of g is in TRANSFER for its active slot n, at a step of the sequence (R61). -/
abbrev Sending (s : State) (g : Seg) (n : SlotId) (pos : BytePos) : Prop :=
  (s.engine g).state = .transfer ∧ (s.engine g).closing = .none ∧ (s.engine g).active = some n ∧ (s.engine g).pos = pos

/-- The engine of g waits with its active slot n and without the bus (R78). -/
abbrev Waiting (s : State) (g : Seg) (n : SlotId) : Prop :=
  (s.engine g).active = some n ∧
    ((s.engine g).state = .waitFree ∨ (s.engine g).state = .backoff ∨ (s.engine g).state = .pollWait)

/-- The status of a set mark (R29). -/
abbrev HasMark (x : Slot) (st : Status) : Prop := (x.mark = .aborted ∧ st = .aborted) ∨ (x.mark = .flushed ∧ st = .flushed)

/-- A segment with the step of the engine's own transfer clocked: the clock is high and no stretch is timed (R63). -/
def clocked (x : Segment) (e : Engine) : Segment := { x with sclHigh := true, engine := { e with stretchTimer := none } }

/-- A segment on which the engine's stop has risen: no transfer is known, both lines are high and the context is in LISTEN
(R75, R64, R151). -/
def stopped (x : Segment) : Segment := { x with known := false, sclHigh := true, sdaHigh := true, ctx := { phase := .listen } }

/-- The engine of a slotless close: TRANSFER at a stop with the parameters of the attempt (R80, R88, R91). -/
def closingEngine (e : Engine) (why : Closing) (nack : Bool) : Engine :=
  { state := .transfer, pos := .closingStop, address := e.address, speed := e.speed, closing := why, nackOut := nack }

/-- The context of g serves no mailbox: the engine controls the transfer on its segment (R86, R151). -/
abbrev ServesNothing (s : State) (g : Seg) : Prop :=
  (s.ctx g).phase = .listen ∨ (s.ctx g).phase = .address ∨ (s.ctx g).phase = .unaddressed

/-! ### The failure evaluation (R96) -/

/-- The entry after the second step: a target failure raises the count, which stays at 15 (R95). -/
def countedEntry (e : TargetEntry) (f : Failure) : TargetEntry :=
  if f.isTarget then { e with failureCount := if e.failureCount < 15 then e.failureCount + 1 else 15 } else e

/-- Case 2: the threshold is met by the count as raised. -/
abbrev MeetsThreshold (e : TargetEntry) (f : Failure) : Prop :=
  f.isTarget = true ∧ e.threshold ≠ 0 ∧ e.threshold.toNat ≤ (countedEntry e f).failureCount

/-- A target given up on NACK_ADDRESS becomes ABSENT from UNKNOWN or PRESENT (R97). -/
def givenUp (e : TargetEntry) (f : Failure) : TargetEntry :=
  if f = .nackAddress ∧ (e.presence = .unknown ∨ e.presence = .present) then { e with presence := .absent } else e

/-- From s to t, the failure f of the attempt of the active slot n of g, which names entry k, has been evaluated (R96), on a segment that the
same event has otherwise left as x, with the flags fs beside CQ_READY and TARGET_QUARANTINED. Its cases stand in the order of R96; in the
last, the entry to BACKOFF is a decision point (R79), and the timer is the backoff base times the failures count (R98). -/
structure Evaluates (s t : State) (g : Seg) (n : SlotId) (k : TargetId) (f : Failure) (x : Segment) (fs : List EventFlag) : Prop where
  segment : OnlySegment s t g { x with engine := t.engine g }
  frame : t = { s with slots := t.slots, targets := t.targets, cq := t.cq, ev := t.ev, segs := t.segs }
  flags : t.ev = { s.ev with flags := t.ev.flags } ∧
    ∀ e : EventFlag, e ≠ .cqReady → e ≠ .targetQuarantined → (t.flag e = true ↔ s.flag e = true ∨ e ∈ fs)
  lengthError : f = .lengthError →
    Completes s t n { s.slot n with failures := (s.slot n).failures + 1 } (countedEntry (s.target k) f) f.status ∧
      t.engine g = {} ∧ t.flag .targetQuarantined = s.flag .targetQuarantined
  quarantined : f ≠ .lengthError → MeetsThreshold (s.target k) f →
    Completes s t n { s.slot n with failures := (s.slot n).failures + 1 }
        { countedEntry (s.target k) f with presence := .quarantined } f.status ∧
      t.engine g = {} ∧
      (t.flag .targetQuarantined = true ↔ s.flag .targetQuarantined = true ∨ (s.target k).presence ≠ .quarantined)
  givenUp : f ≠ .lengthError → ¬ MeetsThreshold (s.target k) f → (s.target k).retryLimit.toNat < (s.slot n).failures + 1 →
    Completes s t n { s.slot n with failures := (s.slot n).failures + 1 } (Claims.givenUp (countedEntry (s.target k) f) f) f.status ∧
      t.engine g = {} ∧ t.flag .targetQuarantined = s.flag .targetQuarantined
  marked : f ≠ .lengthError → ¬ MeetsThreshold (s.target k) f → (s.slot n).failures + 1 ≤ (s.target k).retryLimit.toNat →
    ∀ st : Status, HasMark (s.slot n) st →
    Completes s t n { s.slot n with failures := (s.slot n).failures + 1 } (countedEntry (s.target k) f) st ∧
      t.engine g = {} ∧ t.flag .targetQuarantined = s.flag .targetQuarantined
  backoff : f ≠ .lengthError → ¬ MeetsThreshold (s.target k) f → (s.slot n).failures + 1 ≤ (s.target k).retryLimit.toNat →
    (s.slot n).mark = .none →
    t.slot n = { s.slot n with failures := (s.slot n).failures + 1 } ∧ (∀ m : SlotId, m ≠ n → t.slot m = s.slot m) ∧
      t.target k = countedEntry (s.target k) f ∧ (∀ j : TargetId, j ≠ k → t.target j = s.target j) ∧ t.cq = s.cq ∧
      t.flag .cqReady = s.flag .cqReady ∧ t.flag .targetQuarantined = s.flag .targetQuarantined ∧
      t.engine g = {
        state := .backoff, active := some n, address := (s.engine g).address, speed := (s.engine g).speed, lastFailure := some f
        backoffTimer := some ((s.seg g).config.backoffBase.toNat * ((s.slot n).failures + 1) * 100) }

/-! ### The begin of an attempt (R65) -/

/-- The engine of an attempt that begins: its address and its effective speed are fixed (R65, R66), with the last failure status kept. -/
def attemptEngine (s : State) (g : Seg) (n : SlotId) (k : TargetId) (last : Option Failure) : Engine :=
  { state := .waitFree, active := some n, pos := .address, address := (s.target k).address, lastFailure := last
    speed := if (s.target k).speedClass = .fast ∧ (s.seg g).config.maxSpeed = .fast then .fast else .standard }

/-- The bus-free interval of a speed in microseconds (R66). -/
def freeInterval (sp : Speed) : Nat := match sp with | .standard => 5 | .fast => 2

/-- The bus of a segment is stuck: no known transfer, and the data line has been low for 2 ms (R64). -/
abbrev Stuck (x : Segment) (held : Nat) : Prop := x.known = false ∧ x.sdaHigh = false ∧ 2000 ≤ held

/-- The bus of a segment is free for a speed: no known transfer, and both lines have been high for the bus-free interval (R64). -/
abbrev Free (x : Segment) (sp : Speed) (held : Nat) : Prop :=
  x.known = false ∧ x.sclHigh = true ∧ x.sdaHigh = true ∧ freeInterval sp ≤ held

/-- The recorded levels of a free bus: no known transfer, and both lines high (R64). -/
abbrev LinesFree (x : Segment) : Prop := x.known = false ∧ x.sclHigh = true ∧ x.sdaHigh = true

/-- The recorded levels of a stuck bus: no known transfer, and the data line low (R64). -/
abbrev LinesStuck (x : Segment) : Prop := x.known = false ∧ x.sdaHigh = false

/-- The bus of a segment is busy for its engine: a known transfer, or a low clock without one, unless it is stuck (R64). -/
abbrev Busy (x : Segment) (held : Nat) : Prop := ¬ Stuck x held ∧ (x.known = true ∨ x.sclHigh = false)

/-- A segment whose engine, in WAIT_FREE as e, sends its start at once (R67): it holds the bus in TRANSFER, and the context receives the
address byte alongside it (R151). -/
def started (x : Segment) (e : Engine) : Segment :=
  { x with known := true, ctx := { phase := .address }, engine := { e with state := .transfer, busyTimer := none } }

/-- A segment whose data line falls, or is sampled low, while its clock is high (R62, R85). -/
def dataLow (x : Segment) : Segment := { x with sclHigh := true, sdaHigh := false }

/-- A segment that enters RECOVERING with its engine, which was e, in RECOVERY (R69, R75, R83, R137). -/
def recovering (x : Segment) (e : Engine) : Segment :=
  { x with
    state := .recovering, downMode := .none, known := false, sdaHigh := false, ctx := { phase := .listen }
    engine := { e with
      state := .recovery, met := none, closing := .none, nackOut := false, pulses := 0, recoveryStop := false
      busyTimer := none, stretchTimer := none, releaseTimer := none } }

/-- The segment that a just begun attempt leaves, with e its engine in WAIT_FREE, by the condition of its bus (R67 to R69). -/
def metBus (x : Segment) (e : Engine) (held : Nat) : Segment :=
  if Stuck x held then recovering x e
  else if Free x e.speed held then started x e
  else if Busy x held then { x with engine := { e with busyTimer := some (x.config.busBusyLimit.toNat * 1000) } }
  else { x with engine := e }

/-! ### Departures (R129, R167) -/

/-- The active slot of g, if there is one, has completed with a status, with the counts it had reached (R87 to R89). -/
def EndsActive (s t : State) (g : Seg) (st : Status) : Prop :=
  match (s.engine g).active with
  | some n => Completes s t n (s.slot n) (s.entryOf n) st
  | none => KeepsWork s t

/-- The receive context of g has been cut off: a buffer being FILLED is emptied with INBOUND_LOST, and a buffer being read is LOADED
again (R167). -/
structure EndsContext (s t : State) (g : Seg) : Prop where
  writing : (s.ctx g).phase = .writing →
    t.box (s.ctx g).mailbox = { s.box (s.ctx g).mailbox with inState := .empty, inLength := 0 } ∧
      ∀ m : BoxId, m ≠ (s.ctx g).mailbox → t.box m = s.box m
  reading : (s.ctx g).phase = .reading → (s.ctx g).fill = false →
    t.box (s.ctx g).mailbox = { s.box (s.ctx g).mailbox with outState := .loaded } ∧
      ∀ m : BoxId, m ≠ (s.ctx g).mailbox → t.box m = s.box m
  other : (s.ctx g).phase ≠ .writing → ¬ ((s.ctx g).phase = .reading ∧ (s.ctx g).fill = false) → t.boxes = s.boxes
  lost : t.flag .inboundLost = true ↔ s.flag .inboundLost = true ∨ (s.ctx g).phase = .writing

/-- Segment g has left service and stands as x, with its active slot ended with a status and its context cut off (R129). -/
structure Departs (s t : State) (g : Seg) (x : Segment) (st : Status) (fs : List EventFlag) : Prop where
  active : EndsActive s t g st
  context : EndsContext s t g
  flags : t.ev = { s.ev with flags := t.ev.flags } ∧
    ∀ e : EventFlag, e ≠ .cqReady → e ≠ .inboundLost → (t.flag e = true ↔ s.flag e = true ∨ e ∈ fs)
  segment : OnlySegment s t g x

/-- A segment out of service, with nothing running on it (R128, R87, R89, R167). -/
def outOfService (x : Segment) (st : SegState) (dm : DownMode) : Segment :=
  { x with state := st, downMode := dm, gate := .released, known := false, engine := {}, ctx := { phase := .listen } }

/-- The down mode that an entry to DARK latches (R50). -/
def latchedMode (p : LossPolicy) : DownMode := match p with | .hold => .holding | .flush => .flushing

/-- The clock is held low against the engine, so that it can send no stop (R88, R91). -/
abbrev ClockHeld (e : Engine) : Prop :=
  (e.state = .transfer ∧ e.stretchTimer.isSome = true) ∨ e.state = .releaseWait ∨
    (e.state = .recovery ∧ e.releaseTimer.isSome = true)

/-- The engine holds the bus (table of section 4.1). -/
abbrev HoldsBus (e : Engine) : Prop := e.state = .transfer ∨ e.state = .releaseWait ∨ e.state = .recovery

/-- A segment after a power that is good is found at its entry to DARK, or is asserted in DARK (R131). -/
def settling (x : Segment) : Segment :=
  { x with state := .settling, settleTimer := some (x.config.settleTime.toNat * 1000) }

/-! ### Remote transfers -/

/-- The phase of the context of g has ended at a stop, a start or a repeated start (R157, R160, R162). -/
structure EndsTransfer (s t : State) (g : Seg) : Prop where
  written : (s.ctx g).phase = .writing → 1 ≤ (s.box (s.ctx g).mailbox).inLength →
    t.box (s.ctx g).mailbox = { s.box (s.ctx g).mailbox with inState := .full } ∧ Raises s t [.mbInbound]
  unwritten : (s.ctx g).phase = .writing → (s.box (s.ctx g).mailbox).inLength = 0 →
    t.box (s.ctx g).mailbox = { s.box (s.ctx g).mailbox with inState := .empty } ∧ t.ev = s.ev
  read : (s.ctx g).phase = .reading → (s.ctx g).fill = false →
    t.box (s.ctx g).mailbox =
      { s.box (s.ctx g).mailbox with outState := .empty, outLength := 0, lastRead := (s.ctx g).count } ∧ t.ev = s.ev
  filled : (s.ctx g).phase = .reading → (s.ctx g).fill = true →
    t.box (s.ctx g).mailbox = { s.box (s.ctx g).mailbox with lastRead := 0 } ∧ t.ev = s.ev
  boxes : ∀ m : BoxId, m ≠ (s.ctx g).mailbox → t.box m = s.box m
  none : (s.ctx g).phase ≠ .writing → (s.ctx g).phase ≠ .reading → t.boxes = s.boxes ∧ t.ev = s.ev

/-- Entry e of the match table matches address a on segment g (R152). -/
abbrev Matches (s : State) (e : EntryId) (g : Seg) (a : BitVec 7) : Prop :=
  0x08 ≤ a.toNat ∧ a.toNat ≤ 0x77 ∧ (s.entry e).enabled = true ∧ (s.entry e).segment.toNat = g.val ∧
    a &&& (s.entry e).mask = (s.entry e).address &&& (s.entry e).mask

/-- Entry e is the lowest-numbered entry that matches (R152). -/
abbrev FirstMatch (s : State) (e : EntryId) (g : Seg) (a : BitVec 7) : Prop :=
  Matches s e g a ∧ ∀ d : EntryId, d < e → ¬ Matches s d g a

/-- The context of g is in a phase of another controller's transfer on an UP segment (R151, R152). -/
abbrev Serving (s : State) (g : Seg) (p : Phase) : Prop :=
  (s.seg g).state = .up ∧ (s.engine g).state ≠ .transfer ∧ (s.engine g).state ≠ .releaseWait ∧ (s.ctx g).phase = p

/-- A context that has matched entry e and answers it (R153): the entry's settings are latched and the counts are cleared. -/
def latched (e : EntryId) (x : MatchEntry) (d : Direction) (p : Phase) (hold : Timer) : RxContext :=
  { phase := p, entry := e, mailbox := x.mailbox, direction := d, readHold := x.readHold, holdLimit := x.holdLimit, acked := true
    holdTimer := hold }

/-- A read is held on mailbox m (R161). -/
abbrev Held (s : State) (m : BoxId) : Prop := ∃ g : Seg, (s.ctx g).phase = .holding ∧ (s.ctx g).mailbox = m

/-- Only the context of g changes, to c. -/
def OnlyContext (s t : State) (g : Seg) (c : RxContext) : Prop := OnlySegment s t g { s.seg g with ctx := c }

/-- Only mailbox m changes, to b. -/
def OnlyBox (s t : State) (m : BoxId) (b : Mailbox) : Prop := t.box m = b ∧ ∀ j : BoxId, j ≠ m → t.box j = s.box j

/-- Only Target Table entry k changes, to e. -/
def OnlyEntry (s t : State) (k : TargetId) (e : TargetEntry) : Prop := t.target k = e ∧ ∀ j : TargetId, j ≠ k → t.target j = s.target j

/-- Only slot n changes, to x. -/
def OnlySlot (s t : State) (n : SlotId) (x : Slot) : Prop := t.slot n = x ∧ ∀ m : SlotId, m ≠ n → t.slot m = s.slot m

/-! ### The table port -/

/-- The window after an in-range table access with an outcome: TSTAT, and the index with auto-increment (R184). -/
def accessed (s : State) (st : TableStatus) : Window :=
  { s.win with tstat := st, tidxIndex := if s.win.tidxAuto then s.win.tidxIndex + 1 else s.win.tidxIndex }

/-- A refused table write: the reason in TSTAT, TABLE_ERROR, the index advanced, and nothing else (R2, R21, R184). -/
def TableRefused (s t : State) (st : TableStatus) : Prop :=
  t.win = accessed s st ∧ Raises s t [.tableError] ∧ t = { s with win := t.win, ev := t.ev }

/-- TSEL and TIDX select word w of instance i of table id (R183). -/
abbrev Selects (s : State) (id i w : Nat) : Prop :=
  s.win.tselTable.toNat = id ∧ s.win.tselInstance.toNat = i ∧ s.win.tidxIndex.toNat = w

/-- The number of instances and of words of a table; no table has id 7 (section 10.4). -/
def tableSize (id : Nat) : Nat × Nat :=
  match id with
  | 0 => (48, 4)
  | 1 => (32, 21)
  | 2 => (1, 23)
  | 3 => (6, 4)
  | 4 => (4, 2)
  | 5 => (4, 17)
  | 6 => (4, 17)
  | _ => (0, 0)

/-- The word selected lies outside the tables (R185). -/
abbrev SelectsNothing (s : State) : Prop :=
  (tableSize s.win.tselTable.toNat).1 ≤ s.win.tselInstance.toNat ∨ (tableSize s.win.tselTable.toNat).2 ≤ s.win.tidxIndex.toNat

/-- The word selected is one that the host never writes (section 10.4, read-only words). -/
abbrev SelectsReadOnly (s : State) : Prop :=
  ¬ SelectsNothing s ∧
    ((s.win.tselTable.toNat = 0 ∧ 2 ≤ s.win.tidxIndex.toNat) ∨ (s.win.tselTable.toNat = 1 ∧ s.win.tidxIndex.toNat = 0) ∨
     s.win.tselTable.toNat = 2 ∨ (s.win.tselTable.toNat = 3 ∧ s.win.tidxIndex.toNat = 3) ∨ s.win.tselTable.toNat = 5 ∨
     (s.win.tselTable.toNat = 6 ∧ s.win.tidxIndex.toNat = 0))

/-- A stored field whose least value is 1: 0 is stored as 1 (R146, R150). -/
def notZero (b : Byte) : Byte := if b = 0 then 1 else b

/-! ### The words of the window and of the tables -/

/-- The fields of a word as its layout lists them, each by its lowest bit, its width and its value; bits that carry no field read 0 (R179). -/
def Fields (w : Word) (fields : List (Nat × Nat × Nat)) : Prop :=
  (∀ f ∈ fields, (w.extractLsb' f.1 f.2.1).toNat = f.2.2) ∧
  ∀ b : Nat, (∀ f ∈ fields, b < f.1 ∨ f.1 + f.2.1 ≤ b) → w.getLsbD b = false

/-- The value of a field of one bit. -/
def bit (b : Bool) : Nat := if b then 1 else 0

/-- The word that a TDATA read returns with table id, instance and index selected (R183, R184). -/
def tableRead (s : State) (id i w : Nat) : Word :=
  let selecting : Window := { s.win with
    tselTable := BitVec.ofNat 3 id, tselInstance := BitVec.ofNat 6 i, tidxIndex := BitVec.ofNat 6 w }
  match exec .tdataRead { s with win := selecting } with
  | .next t => t.win.readData
  | .fault _ | .refused _ => 0

/-- The codes of the enumerated fields, each list in the order of its codes (section 10.2, codes of enumerated fields; section 10.3, results;
R113), and the bits of the event flags (section 10.2, register layouts). -/
structure CodesOfTheFields : Prop where
  segments : [SegState.offline, .dark, .settling, .up, .recovering, .faulted].map SegState.code = List.range 6
  engines : [EngineState.idle, .waitFree, .transfer, .backoff, .pollWait, .releaseWait, .recovery].map EngineState.code = List.range 7
  downModes : [DownMode.none, .holding, .flushing].map DownMode.code = List.range 3
  inbound : [InboundState.empty, .filling, .full].map InboundState.code = List.range 3
  outbound : [OutboundState.empty, .loaded, .sending].map OutboundState.code = List.range 3
  slots : [SlotState.free, .staged, .pending, .active, .done].map SlotState.code = List.range 5
  marks : [Mark.none, .aborted, .flushed].map Mark.code = List.range 3
  kinds : (List.range 8).map (fun c => Kind.ofCode (BitVec.ofNat 3 c)) =
    [none, some .write, some .read, some .writeRead, some .probe, some .blockRead, some .poll, none]
  presences : [Presence.unknown, .present, .absent, .quarantined].map Presence.code = List.range 4
  statuses : [none, some Status.ok, some .nackAddress, some .nackData, some .stretchTimeout, some .lengthError, some .arbLost, some .busBusy,
    some .busStuck, some .pollExpired, some .targetQuarantined, some .aborted, some .flushed, some .segmentDown, some .segmentLost,
    some .segmentFault, some .reset].map lastFinalCode = List.range 0x11
  outcomes : SlotOutcome.none.code = 0 ∧ (∀ st : Status, (SlotOutcome.completed st).code = lastFinalCode (some st)) ∧
    [SlotOutcome.badKind, .badTarget, .badLength, .badPoll].map SlotOutcome.code = [0x11, 0x12, 0x13, 0x14]
  speeds : [Speed.standard, .fast].map Speed.code = List.range 2
  lossPolicies : [LossPolicy.hold, .flush].map LossPolicy.code = List.range 2
  tableStatuses : [TableStatus.ok, .range, .readOnly, .notStaged, .empty, .entryInUse, .badAddress, .duplicate].map TableStatus.code =
    List.range 8
  results : [CmdResult.done, .unknownCommand, .badArgument, .noSlot, .notStaged, .badKind, .badTarget, .badLength, .badPoll, .notAbortable,
    .queueEmpty, .mailboxBusy].map CmdResult.code = List.range 0x0C
  flags : [EventFlag.cqReady, .segChange 0, .segChange 1, .segChange 2, .segChange 3, .segChange 4, .segChange 5, .targetQuarantined,
    .mbInbound, .mbOverflow, .mbUnderflow, .mbRefused, .inboundLost, .cmdError, .windowError, .tableError].map EventFlag.bit = List.range 16

/-- The sixteen event flags with their bits in EVT and EVTEN (section 10.2, register layouts). -/
def flagBits : List (EventFlag × Nat) :=
  [(.cqReady, 0), (.segChange 0, 1), (.segChange 1, 2), (.segChange 2, 3), (.segChange 3, 4), (.segChange 4, 5), (.segChange 5, 6),
   (.targetQuarantined, 7), (.mbInbound, 8), (.mbOverflow, 9), (.mbUnderflow, 10), (.mbRefused, 11), (.inboundLost, 12), (.cmdError, 13),
   (.windowError, 14), (.tableError, 15)]

/-- The words of target entry k (section 10.4, target entry). -/
def TargetWords (s : State) (k : TargetId) : Prop :=
  Fields (tableRead s 0 k.val 0)
    [(0, 7, (s.target k).address.toNat), (8, 3, (s.target k).segment.toNat), (15, 1, bit (s.target k).valid)] ∧
  Fields (tableRead s 0 k.val 1)
    [(0, 3, (s.target k).retryLimit.toNat), (4, 4, (s.target k).threshold.toNat), (8, 1, (s.target k).speedClass.code)] ∧
  Fields (tableRead s 0 k.val 2) [(0, 2, (s.target k).presence.code), (8, 4, (s.target k).failureCount)] ∧
  Fields (tableRead s 0 k.val 3) [(0, 6, (s.target k).refCount), (8, 5, lastFinalCode (s.target k).lastFinal)]

/-- The words of slot n (section 10.4, slot). -/
def SlotWords (s : State) (n : SlotId) : Prop :=
  Fields (tableRead s 1 n.val 0)
    [(0, 3, (s.slot n).state.code), (4, 2, (s.slot n).mark.code), (8, 3, (s.slot n).segment.val), (11, 5, (s.slot n).outcome.code)] ∧
  Fields (tableRead s 1 n.val 1)
    [(0, 8, (s.slot n).tag.toNat), (8, 6, (s.slot n).target.toNat), (15, 1, bit (s.slot n).notifyNow)] ∧
  Fields (tableRead s 1 n.val 2)
    [(0, 6, (s.slot n).writeCount.toNat), (6, 6, (s.slot n).readCount.toNat), (12, 3, (s.slot n).kind.toNat)] ∧
  Fields (tableRead s 1 n.val 3) [(0, 8, (s.slot n).pollMask.toNat), (8, 8, (s.slot n).pollMatch.toNat)] ∧
  Fields (tableRead s 1 n.val 4) [(0, 8, (s.slot n).pollInterval.toNat), (8, 8, (s.slot n).pollLimit.toNat)] ∧
  ∀ k : Nat, k < 16 → Fields (tableRead s 1 n.val (5 + k))
    [(0, 8, (byteAt (s.slot n).writeList (2 * k)).toNat), (8, 8, (byteAt (s.slot n).writeList (2 * k + 1)).toNat)]

/-- The words of the completion record of slot n, which stands at the head of the queue (R112; section 10.4, completion head). -/
def RecordWords (s : State) (n : SlotId) : Prop :=
  Fields (tableRead s 2 0 0) [(0, 5, n.val), (8, 3, (s.slot n).segment.val), (12, 3, (s.slot n).kind.toNat)] ∧
  Fields (tableRead s 2 0 1) [(0, 8, (s.slot n).tag.toNat), (8, 6, (s.slot n).target.toNat)] ∧
  Fields (tableRead s 2 0 2) [(0, 5, (s.slot n).outcome.code), (8, 4, (s.slot n).failures)] ∧
  Fields (tableRead s 2 0 3) [(0, 6, (s.slot n).bytesAccepted), (8, 6, (s.slot n).readData.length)] ∧
  Fields (tableRead s 2 0 4) [(0, 8, (s.slot n).pollsUsed)] ∧
  (∀ k : Nat, k < 16 → Fields (tableRead s 2 0 (5 + k))
    [(0, 8, ((s.slot n).readData.getD (2 * k) 0).toNat), (8, 8, ((s.slot n).readData.getD (2 * k + 1) 0).toNat)]) ∧
  tableRead s 2 0 22 ++ tableRead s 2 0 21 = (s.slot n).completionTime

/-- The words of the configuration of segment g, with its glitch count (R146, R181; section 10.4, segment configuration). -/
def ConfigWords (s : State) (g : Seg) : Prop :=
  Fields (tableRead s 3 g.val 0)
    [(0, 8, (s.seg g).config.settleTime.toNat), (8, 4, (s.seg g).config.glitchWindow.toNat),
     (12, 1, (s.seg g).config.lossPolicy.code), (13, 1, (s.seg g).config.maxSpeed.code)] ∧
  Fields (tableRead s 3 g.val 1) [(0, 8, (s.seg g).config.stretchLimit.toNat), (8, 8, (s.seg g).config.busBusyLimit.toNat)] ∧
  Fields (tableRead s 3 g.val 2) [(0, 8, (s.seg g).config.backoffBase.toNat)] ∧
  Fields (tableRead s 3 g.val 3) [(0, 8, (s.seg g).glitchCount)]

/-- The words of match entry e (R150; section 10.4, responder entry). -/
def ResponderWords (s : State) (e : EntryId) : Prop :=
  Fields (tableRead s 4 e.val 0)
    [(0, 7, (s.entry e).address.toNat), (8, 3, (s.entry e).segment.toNat), (12, 2, (s.entry e).mailbox.val),
     (14, 1, bit (s.entry e).readHold), (15, 1, bit (s.entry e).enabled)] ∧
  Fields (tableRead s 4 e.val 1) [(0, 7, (s.entry e).mask.toNat), (8, 8, (s.entry e).holdLimit.toNat)]

/-- Inbound byte i of mailbox m as the host reads it: 00h at and above the inbound length (R154). -/
def inboundByte (s : State) (m : BoxId) (i : Nat) : Byte := if i < (s.box m).inLength then byteAt (s.box m).inBuffer i else 0

/-- The words of mailbox m in its two tables (R154; section 10.4, mailboxes). -/
def MailboxWords (s : State) (m : BoxId) : Prop :=
  Fields (tableRead s 5 m.val 0) [(0, 2, (s.box m).inState.code), (8, 6, (s.box m).inLength)] ∧
  (∀ k : Nat, k < 16 → Fields (tableRead s 5 m.val (1 + k))
    [(0, 8, (inboundByte s m (2 * k)).toNat), (8, 8, (inboundByte s m (2 * k + 1)).toNat)]) ∧
  Fields (tableRead s 6 m.val 0) [(0, 2, (s.box m).outState.code), (2, 6, (s.box m).outLength), (8, 6, (s.box m).lastRead)] ∧
  ∀ k : Nat, k < 16 → Fields (tableRead s 6 m.val (1 + k))
    [(0, 8, (byteAt (s.box m).staging (2 * k)).toNat), (8, 8, (byteAt (s.box m).staging (2 * k + 1)).toNat)]

/-- The outbound field of MBSTAT: HELD for an EMPTY buffer on which a read is held (R154, R181). -/
def shownOutbound (s : State) (m : BoxId) : Nat :=
  if (s.box m).outState = .empty ∧ Held s m then 3 else (s.box m).outState.code

/-- The status registers (section 10.2, register layouts). -/
def StatusRegisters (s : State) : Prop :=
  (∀ g : Seg, Fields (s.readRegister (.segStat g))
    [(0, 3, (s.seg g).state.code), (3, 3, (s.engine g).state.code), (6, 6, (s.seg g).list.length), (12, 2, (s.seg g).downMode.code),
     (14, 1, bit (s.seg g).glitchTimer.isSome), (15, 1, bit (decide (1 ≤ (s.seg g).glitchCount)))]) ∧
  Fields (s.readRegister .cqStat) [(0, 6, s.cq.queue.length), (8, 5, (s.cq.queue.headD 0).val)] ∧
  Fields (s.readRegister .evt) (flagBits.map (fun p => (p.2, 1, bit (s.flag p.1)))) ∧
  Fields (s.readRegister .evtEn) (flagBits.map (fun p => (p.2, 1, bit (s.ev.enables.getLsbD p.1.bit)))) ∧
  Fields (s.readRegister .cmd) [(0, 8, s.win.cmd.toNat)] ∧
  Fields (s.readRegister .cmdRes) [(0, 8, s.win.cmdValue.toNat), (8, 8, s.win.cmdResult.code)] ∧
  Fields (s.readRegister .poolStat) [(0, 6, allSlots.countP (fun n => decide ((s.slot n).state = .free)))] ∧
  Fields (s.readRegister .tStat) [(0, 4, s.win.tstat.code)] ∧
  Fields (s.readRegister .mbStat)
    [(0, 2, (s.box 0).inState.code), (2, 2, shownOutbound s 0), (4, 2, (s.box 1).inState.code), (6, 2, shownOutbound s 1),
     (8, 2, (s.box 2).inState.code), (10, 2, shownOutbound s 2), (12, 2, (s.box 3).inState.code), (14, 2, shownOutbound s 3)]

/-! ### The accesses of the host (R179) -/

/-- LA5 to LA1 for a byte offset of the window. -/
def lines (offset : Nat) : BitVec 5 := BitVec.ofNat 5 (offset / 2)

/-- The registers that hold a word, by their offsets (section 10.2, register map). -/
def registerOffsets : List (Nat × Register) :=
  [(0x00, .winId), (0x02, .winRev), (0x04, .ctl), (0x06, .cmd), (0x08, .cmdArg), (0x0A, .cmdRes), (0x0C, .evt), (0x0E, .evtEn),
   (0x10, .cqStat), (0x12, .cqCfg), (0x14, .poolStat), (0x16, .tsel), (0x18, .tidx), (0x1C, .tStat), (0x1E, .tbLo), (0x20, .tbHi),
   (0x22, .segStat 0), (0x24, .segStat 1), (0x26, .segStat 2), (0x28, .segStat 3), (0x2A, .segStat 4), (0x2C, .segStat 5),
   (0x2E, .mbStat)]

/-- The rows that writes of the registers other than CMD are, by their offsets. -/
def writeRows (v : Word) : List (Nat × Instr) :=
  [(0x04, .ctlWrite v), (0x08, .registerWrite .cmdArg v), (0x0C, .evtWrite v), (0x0E, .evtenWrite v), (0x12, .cqcfgWrite v),
   (0x16, .registerWrite .tsel v), (0x18, .registerWrite .tidx v), (0x00, .registerWrite .winId v), (0x02, .registerWrite .winRev v),
   (0x0A, .registerWrite .cmdRes v), (0x10, .registerWrite .cqStat v), (0x14, .registerWrite .poolStat v),
   (0x1C, .registerWrite .tStat v), (0x1E, .registerWrite .tbLo v), (0x20, .registerWrite .tbHi v),
   (0x22, .registerWrite (.segStat 0) v), (0x24, .registerWrite (.segStat 1) v), (0x26, .registerWrite (.segStat 2) v),
   (0x28, .registerWrite (.segStat 3) v), (0x2A, .registerWrite (.segStat 4) v), (0x2C, .registerWrite (.segStat 5) v),
   (0x2E, .registerWrite .mbStat v)]

/-- The rows of the commands, by their codes (section 10.3). -/
def commandRows : List (BitVec 8 × Instr) :=
  [(0x01#8, .allocate), (0x02#8, .discard), (0x03#8, .post), (0x04#8, .abort), (0x05#8, .retire), (0x06#8, .flushSegment),
   (0x10#8, .offline), (0x11#8, .online), (0x12#8, .segmentReset), (0x18#8, .readmit), (0x20#8, .releaseInbound),
   (0x21#8, .commitOutbound), (0x22#8, .cancelOutbound), (0x5A#8, .deviceReset)]

/-- The row that a write of TDATA is, by the word that is selected (R184, R185). -/
structure TdataRow (s : State) (v : Word) (i : Instr) : Prop where
  outside : SelectsNothing s → i = .tdataWriteOutOfRange v
  readOnly : SelectsReadOnly s → i = .readOnlyTableWrite v
  identity : ∀ k : TargetId, Selects s 0 k.val 0 → i = .targetIdentityWrite v
  policy : ∀ k : TargetId, Selects s 0 k.val 1 → i = .targetPolicyWrite v
  slot : ∀ (n : SlotId) (w : Nat), 1 ≤ w → w ≤ 20 → Selects s 1 n.val w → i = .slotFieldWrite v
  config : ∀ (g : Seg) (w : Nat), w ≤ 2 → Selects s 3 g.val w → i = .segmentConfigWrite v
  responder : ∀ (e : EntryId) (w : Nat), w ≤ 1 → Selects s 4 e.val w → i = .responderEntryWrite v
  staging : ∀ (m : BoxId) (w : Nat), 1 ≤ w → w ≤ 16 → Selects s 6 m.val w → i = .stagingBytesWrite v

/-- A strobe with LCS# asserted, which the part takes as row i: the next step is exec of it (R179). -/
def StrobeIs (s : State) (offset : Nat) (a : Access) (i : Instr) : Prop :=
  strobeRow true (lines offset) a s = some i ∧ step (s.strobe true (lines offset) a) = exec i s

end Sys2Proof.Claims
end

