-- ==== Sys2Proof/Certificates/Slice0/Obligations.lean ====
section
/-! DEFINITION. The statements about the model, each from the rules its docstring names. Where a statement says what an event leaves, it says so
by a next state t with every field fixed: what is named changes as written, and t equals s in every other field. -/

section

open Sys2Proof Sys2Proof.Machine Sys2Proof.Safety Sys2Proof.Claims

/-! ### The step and the two resets of the window -/

/-- A step takes the command at the front of the queue and is exec of it on the state with the rest of the queue; with no command waiting the
block idles (the model's choice, notes/assumptions/3.md). -/
def Obligations.StepTakesTheFrontCommand : Prop :=
  (∀ (c : Instr) (rest : List Instr) (s : State), step { s with pending := c :: rest } = exec c { s with pending := rest }) ∧
  (∀ s : State, s.pending = [] → step s = .next s)

/-- While DEVICE_RESET runs or RST# is held every write of the window is ignored, a read with an effect of its own only puts 0 on the
data lines, and no event of the dispatch, the engines, the Responder or their timers is taken (R188, R189, R148, R149). That no event of an engine
is taken while DEVICE_RESET runs is the model's choice: R188 says that engines close their transfers then, and the model collects those stops in
DEVICE_RESET_END (notes/assumptions/10.md), with the end of the reset a row of its own (notes/assumptions/1.md). -/
def Obligations.ResetsCloseTheWindow : Prop :=
  ∀ (c : Instr) (s : State), s.win.resetBusy = true ∨ s.rstHeld = true →
    (windowWrite c = true ∨ segmentEvent c = true → exec c s = .next s) ∧
    (windowRead c = true → exec c s = .next { s with win := { s.win with readData := 0 } })

/-! ### Values after RST# -/

/-- The window registers, and every word of every table, hold after RST# the values of the register map, of the notes of section 10.4 and of the
chapters that own them (R41, R168, R15, R125). SEGSTAT reads 2001h with no SPGn asserted, the model's choice for the pins at the end of RST#
(notes/assumptions/7.md). -/
def Obligations.RegistersAfterReset : Prop :=
  State.reset.readRegister .winId = 0x6410#16 ∧ State.reset.readRegister .winRev = 0x0001#16 ∧ State.reset.readRegister .ctl = 0 ∧
  State.reset.readRegister .cmd = 0 ∧ State.reset.readRegister .cmdArg = 0 ∧ State.reset.readRegister .cmdRes = 0 ∧
  State.reset.readRegister .evt = 0 ∧ State.reset.readRegister .evtEn = 0 ∧ State.reset.readRegister .cqStat = 0 ∧
  State.reset.readRegister .cqCfg = 0x0001#16 ∧ State.reset.readRegister .poolStat = 0x0020#16 ∧
  State.reset.readRegister .tsel = 0 ∧ State.reset.readRegister .tidx = 0 ∧ State.reset.readRegister .tStat = 0 ∧
  State.reset.readRegister .tbLo = 0 ∧ State.reset.readRegister .tbHi = 0 ∧ State.reset.readRegister .mbStat = 0 ∧
  (∀ g : Seg, State.reset.readRegister (.segStat g) = 0x2001#16) ∧
  (∀ g : Seg, State.reset.tableValue (.config g 0) = 0x3214#16 ∧ State.reset.tableValue (.config g 1) = 0x321E#16 ∧
    State.reset.tableValue (.config g 2) = 0x000A#16 ∧ State.reset.tableValue (.glitchCount g) = 0) ∧
  (∀ e : EntryId, State.reset.tableValue (.responder e 0) = 0 ∧ State.reset.tableValue (.responder e 1) = 0x0A7F#16) ∧
  (∀ k : TargetId, State.reset.tableValue (.identity k) = 0 ∧ State.reset.tableValue (.policy k) = 0x0082#16 ∧
    State.reset.tableValue (.targetStatus k 2) = 0 ∧ State.reset.tableValue (.targetStatus k 3) = 0) ∧
  (∀ n : SlotId, State.reset.tableValue (.slotStatus n) = 0 ∧
    ∀ w : Nat, 1 ≤ w → w ≤ 20 → State.reset.tableValue (.slotField n w) = 0) ∧
  (∀ w : Nat, w ≤ 22 → State.reset.tableValue (.record w) = 0) ∧
  (∀ m : BoxId, (∀ w : Nat, w ≤ 16 → State.reset.tableValue (.inbound m w) = 0) ∧
    State.reset.tableValue (.outboundStatus m) = 0 ∧ ∀ w : Nat, 1 ≤ w → w ≤ 16 → State.reset.tableValue (.staging m w) = 0)

/-- The machine after RST# meets every invariant of Safety.lean. -/
def Obligations.ResetMeetsTheInvariants : Prop :=
  IdentityInv State.reset ∧ WorkInv State.reset ∧ ReferenceInv State.reset ∧ SignalInv State.reset ∧ PowerInv State.reset ∧
    MailboxInv State.reset ∧ CountInv State.reset

/-! ### Invariants -/

/-- No two valid target entries ever come to hold one segment and address, and a valid entry's address and segment stay usable (R3). -/
def Obligations.EveryStepKeepsIdentities : Prop :=
  ∀ s t : State, IdentityInv s → step s = .next t → IdentityInv t

/-- The Completion Queue stays the list of the DONE slots, each list that of its PENDING slots, each once, and the active slots those of the
engines (R18, R43, R48, R61, R110). -/
def Obligations.EveryStepKeepsTheWork : Prop :=
  ∀ s t : State, PowerInv s → WorkInv s → step s = .next t → WorkInv t

/-- Every reference count stays the number of PENDING and ACTIVE slots naming the entry, and each of them names a valid entry on its own
segment (R10, R28). -/
def Obligations.EveryStepKeepsReferenceCounts : Prop :=
  ∀ s t : State, IdentityInv s → WorkInv s → ReferenceInv s → step s = .next t → ReferenceInv t

/-- CQ_READY stays set whenever the depth is at least the threshold, and the coalescing timer runs exactly while its three conditions hold
(R120 to R123). -/
def Obligations.EveryStepKeepsTheQueueSignalled : Prop :=
  ∀ s t : State, SignalInv s → step s = .next t → SignalInv t

/-- The timers, gates, down modes, engines and contexts of the segments stay those of their segment states (R61, R127 to R135, R50, R151). -/
def Obligations.EveryStepKeepsSegmentsInOrder : Prop :=
  ∀ s t : State, PowerInv s → step s = .next t → PowerInv t

/-- Every mailbox length stays in 0 to 32, and no two transfers come to share a buffer (R154, R155, R158). -/
def Obligations.EveryStepKeepsMailboxes : Prop :=
  ∀ s t : State, PowerInv s → MailboxInv s → step s = .next t → MailboxInv t

/-- No slot comes to show more than 8 failures, 255 polls used, 32 bytes accepted or 32 bytes read, no entry a count above 15, and no segment a
glitch count above 255 (R9, R30, R31, R100, R130). A posted slot keeps meeting the checks of its POST, and an attempt on the wire stays within the
counts of its descriptor (R36, R65, R72, R73). -/
def Obligations.EveryStepKeepsCountsInRange : Prop :=
  ∀ s t : State, WorkInv s → CountInv s → step s = .next t → CountInv t

/-! ### Commands on slots, lists and the queue -/

/-- A code that names no command is refused with UNKNOWN_COMMAND, and a number in CMDARG outside its range with BAD_ARGUMENT, each with returned
value 0 and CMD_ERROR; code 00h is such a code (R182). -/
def Obligations.BadCodesAndNumbersAreRefused : Prop :=
  (∀ (i : Instr) (code : BitVec 8) (k : Nat) (s : State), (i, code, k) ∈ numbered → s.windowOpen = true → k ≤ s.argNumber →
      ∃ t : State, exec i s = .next t ∧ RefusedWith s t code .badArgument 0) ∧
  (0x00#8 ∉ commandCodes ∧
    ∀ (s : State) (code : BitVec 8), s.windowOpen = true → code ∉ commandCodes →
      ∃ t : State, exec (.unknownCommand code) s = .next t ∧ RefusedWith s t code .unknownCommand 0)

/-- ALLOCATE takes the lowest-numbered FREE slot with every field cleared, or is refused with NO_SLOT (R33); DISCARD makes a STAGED slot FREE with
its fields kept, and refuses any other slot (R34). -/
def Obligations.SlotsAreTakenAndReturned : Prop :=
  ((∀ (s : State) (n : SlotId), s.windowOpen = true → (s.slot n).state = .free → (∀ m : SlotId, m < n → (s.slot m).state ≠ .free) →
      ∃ t : State, exec .allocate s = .next t ∧ t.win = answered s 0x01#8 .done n.val ∧ OnlySlot s t n freshSlot ∧
        t.freeCount + 1 = s.freeCount ∧ t = { s with win := t.win, slots := t.slots }) ∧
    (∀ s : State, s.windowOpen = true → (∀ n : SlotId, (s.slot n).state ≠ .free) →
      ∃ t : State, exec .allocate s = .next t ∧ RefusedWith s t 0x01#8 .noSlot 0)) ∧
  (∀ (s : State) (n : SlotId), s.windowOpen = true → s.argNumber = n.val →
      ((s.slot n).state = .staged →
        ∃ t : State, exec .discard s = .next t ∧ t.win = answered s 0x02#8 .done n.val ∧
          OnlySlot s t n { s.slot n with state := .free } ∧ t.freeCount = s.freeCount + 1 ∧
          t = { s with win := t.win, slots := t.slots }) ∧
      ((s.slot n).state ≠ .staged → ∃ t : State, exec .discard s = .next t ∧ RefusedWith s t 0x02#8 .notStaged n.val))

/-- An accepted POST latches the segment, clears the kept fields, raises the reference count and puts the slot at the tail of its segment's
list (R37); on a segment that is down and FLUSHING with an empty list and no active slot it completes the slot at once with SEGMENT_DOWN
(R38). -/
def Obligations.AcceptedPosts : Prop :=
  (∀ (s : State) (n : SlotId) (kind : Kind) (k : TargetId) (g : Seg), s.windowOpen = true → s.argNumber = n.val →
      Postable s n kind k g → ¬ (downAndFlushing (s.seg g) ∧ (s.seg g).list = [] ∧ (s.engine g).active = none) →
      ∃ t : State, exec .post s = .next t ∧ t.win = answered s 0x03#8 .done n.val ∧
        OnlySlot s t n { postedSlot (s.slot n) g with state := .pending } ∧
        OnlyEntry s t k { s.target k with refCount := (s.target k).refCount + 1 } ∧
        OnlySegment s t g { s.seg g with list := (s.seg g).list ++ [n] } ∧
        t = { s with win := t.win, slots := t.slots, targets := t.targets, segs := t.segs }) ∧
  (∀ (s : State) (n : SlotId) (kind : Kind) (k : TargetId) (g : Seg), s.windowOpen = true → s.argNumber = n.val →
      Postable s n kind k g → downAndFlushing (s.seg g) → (s.seg g).list = [] → (s.engine g).active = none →
      ∃ t : State, exec .post s = .next t ∧ t.win = answered s 0x03#8 .done n.val ∧
        Completes s t n (postedSlot (s.slot n) g) { s.target k with refCount := (s.target k).refCount + 1 } .segmentDown ∧
        RaisesBesideReady s t [] ∧
        t = { s with win := t.win, slots := t.slots, targets := t.targets, cq := t.cq, ev := t.ev })

/-- POST checks the slot in the order of R35: NOT_STAGED, BAD_KIND, BAD_TARGET, BAD_LENGTH by the ranges of R36, BAD_POLL. The last four are
also written into the outcome, and the slot stays STAGED. -/
def Obligations.PostRefusesTheFirstFault : Prop :=
  ∀ (s : State) (n : SlotId), IdentityInv s → s.windowOpen = true → s.argNumber = n.val →
    ((s.slot n).state ≠ .staged → ∃ t : State, exec .post s = .next t ∧ RefusedWith s t 0x03#8 .notStaged n.val) ∧
    (∀ (r : CmdResult) (o : SlotOutcome), (s.slot n).state = .staged →
      ((∀ kind : Kind, ¬ HasKind (s.slot n) kind) ∧ r = .badKind ∧ o = .badKind ∨
       (∃ kind : Kind, HasKind (s.slot n) kind ∧
         ((∀ k : TargetId, ¬ NamesEntry s n k) ∧ r = .badTarget ∧ o = .badTarget ∨
          (∃ k : TargetId, NamesEntry s n k) ∧
            (¬ LengthRule kind (s.slot n).writeCount.toNat (s.slot n).readCount.toNat ∧ r = .badLength ∧ o = .badLength ∨
             LengthRule kind (s.slot n).writeCount.toNat (s.slot n).readCount.toNat ∧ ¬ PollRule (s.slot n) kind ∧
               r = .badPoll ∧ o = .badPoll)))) →
      ∃ t : State, exec .post s = .next t ∧ t.win = answered s 0x03#8 r n.val ∧
        OnlySlot s t n { s.slot n with outcome := o } ∧ Raises s t [.cmdError] ∧
        t = { s with win := t.win, ev := t.ev, slots := t.slots })

/-- ABORT marks an unmarked PENDING or ACTIVE slot; the mark of an active slot whose engine waits without the bus ends it in the event
(R53, R78, R80). -/
def Obligations.AbortMarksOrEndsTheSlot : Prop :=
  ∀ (s : State) (n : SlotId), s.windowOpen = true → s.argNumber = n.val →
    ((s.slot n).state = .free ∨ (s.slot n).state = .staged ∨ (s.slot n).state = .done →
      ∃ t : State, exec .abort s = .next t ∧ RefusedWith s t 0x04#8 .notAbortable n.val) ∧
    ((s.slot n).state = .pending ∨ (s.slot n).state = .active → (s.slot n).mark ≠ .none →
      ∃ t : State, exec .abort s = .next t ∧ t = { s with win := answered s 0x04#8 .done n.val }) ∧
    ((s.slot n).mark = .none →
      (s.slot n).state = .pending ∨ ((s.slot n).state = .active ∧ (s.engine (s.slot n).segment).active = some n ∧
        HoldsBus (s.engine (s.slot n).segment)) →
      ∃ t : State, exec .abort s = .next t ∧ t.win = answered s 0x04#8 .done n.val ∧
        OnlySlot s t n { s.slot n with mark := .aborted } ∧ t = { s with win := t.win, slots := t.slots }) ∧
    ((s.slot n).mark = .none → (s.slot n).state = .active → Waiting s (s.slot n).segment n →
      ∃ t : State, exec .abort s = .next t ∧ t.win = answered s 0x04#8 .done n.val ∧
        Completes s t n { s.slot n with mark := .aborted } (s.entryOf n) .aborted ∧ RaisesBesideReady s t [] ∧
        OnlySegment s t (s.slot n).segment { s.seg (s.slot n).segment with engine := {} } ∧
        t = { s with win := t.win, slots := t.slots, targets := t.targets, cq := t.cq, ev := t.ev, segs := t.segs })

/-- FLUSH_SEGMENT marks every unmarked slot of the list and the active slot of a segment and returns their number; an unmarked active slot of an
engine that waits without the bus ends in the event, with its record at the tail of the queue and the engine IDLE (R55, R78, R80, R121, R122). -/
def Obligations.FlushMarksTheSegment : Prop :=
  ∀ (s : State) (g : Seg), WorkInv s → s.windowOpen = true → s.argNumber = g.val →
    ((s.engine g).active = none ∨ HoldsBus (s.engine g) →
      ∃ t : State, exec .flushSegment s = .next t ∧
        t.win = answered s 0x06#8 .done
          (((s.engine g).active.toList ++ (s.seg g).list).countP (fun m => decide ((s.slot m).mark = .none))) ∧
        (∀ m : SlotId, t.slot m =
          if (m ∈ (s.seg g).list ∨ (s.engine g).active = some m) ∧ (s.slot m).mark = .none then { s.slot m with mark := .flushed }
          else s.slot m) ∧
        t = { s with win := t.win, slots := t.slots }) ∧
    (∀ n : SlotId, Waiting s g n → (s.slot n).mark = .none →
      ∃ t : State, exec .flushSegment s = .next t ∧
        t.win = answered s 0x06#8 .done ((n :: (s.seg g).list).countP (fun m => decide ((s.slot m).mark = .none))) ∧
        t.slot n = { s.slot n with
          mark := .flushed, state := .done, outcome := .completed .flushed, completionTime := s.ev.timeBase } ∧
        (∀ m : SlotId, m ≠ n → t.slot m =
          if m ∈ (s.seg g).list ∧ (s.slot m).mark = .none then { s.slot m with mark := .flushed } else s.slot m) ∧
        (∀ k : TargetId, t.target k =
          if s.targetIndex n = some k then
            { s.target k with refCount := (s.target k).refCount - 1, lastFinal := some .flushed }
          else s.target k) ∧
        Appends s t n ∧ RaisesBesideReady s t [] ∧ OnlySegment s t g { s.seg g with engine := {} } ∧
        t = { s with win := t.win, slots := t.slots, targets := t.targets, cq := t.cq, ev := t.ev, segs := t.segs })

/-- RETIRE frees the slot of the head record and returns its number, leaves CQ_READY and the Target Table alone, and stops the coalescing timer
when it leaves the queue empty; with an empty queue it is refused with QUEUE_EMPTY (R118). -/
def Obligations.RetireFreesTheHeadRecord : Prop :=
  (∀ (s : State) (n : SlotId) (rest : List SlotId), s.windowOpen = true → s.cq.queue = n :: rest → (s.slot n).state = .done →
    ∃ t : State, exec .retire s = .next t ∧ t.win = answered s 0x05#8 .done n.val ∧ OnlySlot s t n { s.slot n with state := .free } ∧
      t.freeCount = s.freeCount + 1 ∧ t.depth + 1 = s.depth ∧
      t.cq = { s.cq with queue := rest, timer := if rest = [] then none else s.cq.timer } ∧
      t = { s with win := t.win, slots := t.slots, cq := t.cq }) ∧
  (∀ s : State, s.windowOpen = true → s.cq.queue = [] → ∃ t : State, exec .retire s = .next t ∧ RefusedWith s t 0x05#8 .queueEmpty 0)

/-! ### Commands on segments and targets -/

/-- OFFLINE of a segment out of service abandons its timers and latches the mode of the argument, and of an OFFLINE one only the mode, without
SEGn_CHANGE (R141, R142). From service it completes the active slot SEGMENT_DOWN, ends the receive context, and leaves the engine sending one
stop where it holds the bus and the clock is not held low, else released and IDLE (R88, R129, R167). -/
def Obligations.OfflineLeavesService : Prop :=
  (∀ (s : State) (g : Seg), s.windowOpen = true → s.argNumber = g.val →
      ((s.seg g).state = .dark ∨ (s.seg g).state = .settling ∨ (s.seg g).state = .faulted →
        ∃ t : State, exec .offline s = .next t ∧ t.win = answered s 0x10#8 .done g.val ∧ Raises s t [.segChange g] ∧
          OnlySegment s t g { s.seg g with
            state := .offline, settleTimer := none, glitchTimer := none
            downMode := if s.win.cmdArg.getLsbD 8 then .flushing else .holding } ∧
          t = { s with win := t.win, ev := t.ev, segs := t.segs }) ∧
      ((s.seg g).state = .offline →
        ∃ t : State, exec .offline s = .next t ∧ t.win = answered s 0x10#8 .done g.val ∧
          OnlySegment s t g { s.seg g with downMode := if s.win.cmdArg.getLsbD 8 then .flushing else .holding } ∧
          t = { s with win := t.win, segs := t.segs })) ∧
  (∀ (s : State) (g : Seg), s.windowOpen = true → s.argNumber = g.val → (s.seg g).state = .up ∨ (s.seg g).state = .recovering →
      ∃ t : State, exec .offline s = .next t ∧ t.win = answered s 0x10#8 .done g.val ∧
        (HoldsBus (s.engine g) ∧ ¬ ClockHeld (s.engine g) →
          Departs s t g { s.seg g with
            state := .offline, downMode := if s.win.cmdArg.getLsbD 8 then .flushing else .holding
            settleTimer := none, glitchTimer := none, gate := .connected, known := false
            engine := closingEngine (s.engine g) .offline false, ctx := { phase := .listen } } .segmentDown [.segChange g]) ∧
        (¬ (HoldsBus (s.engine g) ∧ ¬ ClockHeld (s.engine g)) →
          Departs s t g
            (outOfService { s.seg g with settleTimer := none, glitchTimer := none } .offline
              (if s.win.cmdArg.getLsbD 8 then .flushing else .holding)) .segmentDown [.segChange g]) ∧
        t = { s with
          win := t.win, ev := t.ev, cq := t.cq, slots := t.slots, targets := t.targets, segs := t.segs, boxes := t.boxes })

/-- ONLINE moves an OFFLINE segment to DARK with the down mode of its loss policy, and on to SETTLING where SPGn is recorded as asserted; a
segment that is not OFFLINE refuses it (R143). -/
def Obligations.OnlineRequalifies : Prop :=
  ∀ (s : State) (g : Seg), s.windowOpen = true → s.argNumber = g.val →
    ((s.seg g).state ≠ .offline → ∃ t : State, exec .online s = .next t ∧ RefusedWith s t 0x11#8 .badArgument g.val) ∧
    ((s.seg g).state = .offline →
      ∃ t : State, exec .online s = .next t ∧ t.win = answered s 0x11#8 .done g.val ∧ Raises s t [.segChange g] ∧
        OnlySegment s t g
          (let dark : Segment := { s.seg g with
            state := .dark, downMode := latchedMode (s.seg g).config.lossPolicy, gate := .released, known := false, engine := {} }
           if (s.seg g).spg then settling dark else dark) ∧
        t = { s with win := t.win, ev := t.ev, segs := t.segs })

/-- SEGMENT_RESET completes the active slot and then the whole list with RESET, in post order, with their records at the tail of the queue and
CQ_READY and the coalescing timer as these appends leave them (R111, R121, R122). It clears timers, glitch count, engine and context,
and requalifies the segment through DARK; an OFFLINE segment stays OFFLINE without SEGn_CHANGE (R144, R57, R17, R89). -/
def Obligations.SegmentResetClearsTheWork : Prop :=
  ∀ (s : State) (g : Seg), WorkInv s → s.windowOpen = true → s.argNumber = g.val →
    ∃ t : State, exec .segmentReset s = .next t ∧
      t.win = answered s 0x12#8 .done ((s.engine g).active.toList ++ (s.seg g).list).length ∧
      (∀ m : SlotId, t.slot m =
        if (s.engine g).active = some m ∨ m ∈ (s.seg g).list then
          { s.slot m with state := .done, outcome := .completed .reset, completionTime := s.ev.timeBase }
        else s.slot m) ∧
      AppendsAll s t ((s.engine g).active.toList ++ (s.seg g).list) ∧
      (∀ k : TargetId, t.target k = { s.target k with
        refCount := (s.target k).refCount -
          ((s.engine g).active.toList ++ (s.seg g).list).countP (fun m => decide (s.targetIndex m = some k))
        lastFinal := if ∃ m ∈ (s.engine g).active.toList ++ (s.seg g).list, s.targetIndex m = some k then some .reset
          else (s.target k).lastFinal }) ∧
      EndsContext s t g ∧
      OnlySegment s t g
        (let cleared : Segment := { outOfService (s.seg g) (s.seg g).state (s.seg g).downMode with
          settleTimer := none, glitchTimer := none, glitchCount := 0, list := [] }
         if (s.seg g).state = .offline then cleared
         else
           let dark : Segment := { cleared with state := .dark, downMode := latchedMode (s.seg g).config.lossPolicy }
           if (s.seg g).spg then settling dark else dark) ∧
      (∀ e : EventFlag, e ≠ .cqReady → e ≠ .inboundLost →
        (t.flag e = true ↔ s.flag e = true ∨ (e = .segChange g ∧ (s.seg g).state ≠ .offline))) ∧
      t = { s with
        win := t.win, ev := { s.ev with flags := t.ev.flags }, cq := t.cq, slots := t.slots, targets := t.targets, segs := t.segs
        boxes := t.boxes }

/-- READMIT sets the presence of a valid entry to UNKNOWN and its consecutive failure count to 0, whatever they were; an entry whose valid field
is clear refuses it with its number, and a number outside 0 to 47 with returned value 0 (R13). -/
def Obligations.ReadmitForgetsThePresence : Prop :=
  (∀ (s : State) (k : TargetId), s.windowOpen = true → s.argNumber = k.val →
    ((s.target k).valid = true →
      ∃ t : State, exec .readmit s = .next t ∧ t.win = answered s 0x18#8 .done k.val ∧
        OnlyEntry s t k { s.target k with presence := .unknown, failureCount := 0 } ∧
        t = { s with win := t.win, targets := t.targets }) ∧
    ((s.target k).valid = false → ∃ t : State, exec .readmit s = .next t ∧ RefusedWith s t 0x18#8 .badArgument k.val)) ∧
  (∀ s : State, s.windowOpen = true → 48 ≤ s.argNumber →
    ∃ t : State, exec .readmit s = .next t ∧ RefusedWith s t 0x18#8 .badArgument 0)

/-! ### Commands on mailboxes -/

/-- RELEASE_INBOUND empties a FULL inbound buffer, changes nothing when it is EMPTY, and is refused with MAILBOX_BUSY while it is FILLING
(R163). -/
def Obligations.ReleaseInboundEmptiesTheBuffer : Prop :=
  (∀ (s : State) (m : BoxId), s.windowOpen = true → s.argNumber = m.val →
    ((s.box m).inState = .full →
      ∃ t : State, exec .releaseInbound s = .next t ∧ t.win = answered s 0x20#8 .done m.val ∧
        OnlyBox s t m { s.box m with inState := .empty, inLength := 0 } ∧
        (∀ w : Nat, 1 ≤ w → w ≤ 16 → t.tableValue (.inbound m w) = 0) ∧
        t = { s with win := t.win, boxes := t.boxes }) ∧
    ((s.box m).inState = .empty →
      ∃ t : State, exec .releaseInbound s = .next t ∧ t = { s with win := answered s 0x20#8 .done m.val }) ∧
    ((s.box m).inState = .filling → ∃ t : State, exec .releaseInbound s = .next t ∧ RefusedWith s t 0x20#8 .mailboxBusy m.val)) ∧
  (∀ s : State, s.windowOpen = true → 4 ≤ s.argNumber →
    ∃ t : State, exec .releaseInbound s = .next t ∧ RefusedWith s t 0x20#8 .badArgument 0)

/-- COMMIT_OUTBOUND copies the first length staging bytes into the outbound buffer, and a held read takes the buffer in the same event (R164,
R191). CANCEL_OUTBOUND withdraws LOADED bytes, is refused while they are sent, and ends a held read with the fill byte and MB_UNDERFLOW (R165,
R162). That a COMMIT_OUTBOUND refused for its length returns the mailbox number is an inference of the model (notes/assumptions/17.md). -/
def Obligations.OutboundCommands : Prop :=
  (∀ (s : State) (m : BoxId), s.windowOpen = true → s.argNumber = m.val →
      (s.argLength = 0 ∨ 32 < s.argLength → ∃ t : State, exec .commitOutbound s = .next t ∧ RefusedWith s t 0x21#8 .badArgument m.val) ∧
      (1 ≤ s.argLength → s.argLength ≤ 32 → (s.box m).outState ≠ .empty →
        ∃ t : State, exec .commitOutbound s = .next t ∧ RefusedWith s t 0x21#8 .mailboxBusy m.val) ∧
      (1 ≤ s.argLength → s.argLength ≤ 32 → (s.box m).outState = .empty →
        ∃ t : State, exec .commitOutbound s = .next t ∧ t.win = answered s 0x21#8 .done m.val ∧
          (∀ i : Nat, i < 32 → byteAt (t.box m).outBuffer i =
            if i < s.argLength then byteAt (s.box m).staging i else byteAt (s.box m).outBuffer i) ∧
          (¬ Held s m → OnlyBox s t m
            { s.box m with outState := .loaded, outLength := s.argLength, outBuffer := (t.box m).outBuffer } ∧
            t = { s with win := t.win, boxes := t.boxes }) ∧
          (∀ g : Seg, (s.ctx g).phase = .holding → (s.ctx g).mailbox = m →
            (∀ h : Seg, (s.ctx h).phase = .holding → (s.ctx h).mailbox = m → h = g) →
            OnlyBox s t m { s.box m with outState := .sending, outLength := s.argLength, outBuffer := (t.box m).outBuffer } ∧
            OnlyContext s t g { s.ctx g with
              phase := .reading, count := 0, fill := false, underflow := false, stopped := false, holdTimer := none } ∧
            t = { s with win := t.win, boxes := t.boxes, segs := t.segs }))) ∧
  (∀ (s : State) (m : BoxId), s.windowOpen = true → s.argNumber = m.val →
      ((s.box m).outState = .loaded →
        ∃ t : State, exec .cancelOutbound s = .next t ∧ t.win = answered s 0x22#8 .done m.val ∧
          OnlyBox s t m { s.box m with outState := .empty, outLength := 0 } ∧ t = { s with win := t.win, boxes := t.boxes }) ∧
      ((s.box m).outState = .sending → ∃ t : State, exec .cancelOutbound s = .next t ∧ RefusedWith s t 0x22#8 .mailboxBusy m.val) ∧
      ((s.box m).outState = .empty → ¬ Held s m →
        ∃ t : State, exec .cancelOutbound s = .next t ∧ t = { s with win := answered s 0x22#8 .done m.val }) ∧
      (∀ g : Seg, (s.box m).outState = .empty → (s.ctx g).phase = .holding → (s.ctx g).mailbox = m →
        (∀ h : Seg, (s.ctx h).phase = .holding → (s.ctx h).mailbox = m → h = g) →
        ∃ t : State, exec .cancelOutbound s = .next t ∧ t.win = answered s 0x22#8 .done m.val ∧ Raises s t [.mbUnderflow] ∧
          OnlyContext s t g { s.ctx g with
            phase := .reading, count := 0, fill := true, underflow := true, stopped := false, holdTimer := none } ∧
          t = { s with win := t.win, ev := t.ev, segs := t.segs }))

/-! ### Resets -/

/-- DEVICE_RESET sets reset-busy, clears every event flag, stops the coalescing timer, and leaves every engine that holds its bus with the
clock free, outside RECOVERY, sending one stop and every other released; nothing else changes until it ends (R187, R91, R149, R178, R122). -/
def Obligations.DeviceResetBegins : Prop :=
  ∀ s : State, s.windowOpen = true →
    ∃ t : State, exec .deviceReset s = .next t ∧
      (∀ g : Seg, t.seg g =
        let kept : Segment := { s.seg g with settleTimer := none, glitchTimer := none, ctx := { phase := .listen } }
        if HoldsBus (s.engine g) ∧ ¬ ClockHeld (s.engine g) ∧ (s.engine g).state ≠ .recovery then
          { kept with engine := closingEngine (s.engine g) .deviceReset false }
        else { kept with gate := .released, known := false, engine := {} }) ∧
      t.intAsserted = false ∧
      t = { s with
        win := { s.win with cmd := 0x5A#8, resetBusy := true }, ev := { s.ev with flags := 0 }, cq := { s.cq with timer := none }
        segs := t.segs }

/-- DEVICE_RESET ends with every slot as ALLOCATE clears it but FREE, every queue and mailbox empty, what was learned forgotten and what the host
configured kept; each segment that is not OFFLINE is DARK, or SETTLING with SEGn_CHANGE where SPGn is asserted (R187, R16, R42, R59, R126,
R149, R169, R178). -/
def Obligations.DeviceResetEnds : Prop :=
  ∀ s : State, s.win.resetBusy = true → s.rstHeld = false →
    ∃ t : State, exec .deviceResetEnd s = .next t ∧
      t.win = { intEnable := s.win.intEnable, dispatchHold := s.win.dispatchHold, cmd := 0x5A#8, cmdArg := s.win.cmdArg,
                readData := s.win.readData } ∧
      (∀ n : SlotId, t.slot n = { freshSlot with state := .free }) ∧
      (∀ k : TargetId, t.target k =
        { s.target k with presence := .unknown, failureCount := 0, refCount := 0, lastFinal := none }) ∧
      (∀ m : BoxId, t.box m = {}) ∧
      t.cq = { threshold := s.cq.threshold, delay := s.cq.delay } ∧
      (∀ g : Seg, t.seg g =
        let cleared : Segment := { outOfService (s.seg g) (s.seg g).state (s.seg g).downMode with
          settleTimer := none, glitchTimer := none, glitchCount := 0, list := [] }
        if (s.seg g).state = .offline then cleared
        else
          let dark : Segment := { cleared with state := .dark, downMode := latchedMode (s.seg g).config.lossPolicy }
          if (s.seg g).spg then settling dark else dark) ∧
      (∀ e : EventFlag, t.flag e = true ↔
        ∃ g : Seg, e = .segChange g ∧ (s.seg g).state ≠ .offline ∧ (s.seg g).spg = true) ∧
      t = { s with
        win := t.win, ev := { s.ev with flags := t.ev.flags }, cq := t.cq, slots := t.slots, targets := t.targets, boxes := t.boxes
        segs := t.segs }

/-- While RST# is held every block has its reset values and the window is closed; when it ends the segments whose SPGn is asserted enter SETTLING
with SEGn_CHANGE, and all else is as State.reset has it (R148, R189, R15, R41, R90, R125, R168, R177). -/
def Obligations.RstTakesResetValues : Prop :=
  (∀ s : State, ∃ t : State, exec .rstAssert s = .next t ∧ t.windowOpen = false ∧ t.intAsserted = false ∧
    (∀ g : Seg, t.seg g = { spg := (s.seg g).spg, sclHigh := (s.seg g).sclHigh, sdaHigh := (s.seg g).sdaHigh }) ∧
    t = { State.reset with rstHeld := true, segs := t.segs, pending := s.pending }) ∧
  (∀ s : State, s.rstHeld = true → ∃ t : State, exec .rstEnd s = .next t ∧ t.windowOpen = true ∧
    (∀ g : Seg, t.seg g =
      let dark : Segment := { spg := (s.seg g).spg, sclHigh := (s.seg g).sclHigh, sdaHigh := (s.seg g).sdaHigh }
      if (s.seg g).spg then { dark with state := .settling, settleTimer := some 20000 } else dark) ∧
    (∀ e : EventFlag, t.flag e = true ↔ ∃ g : Seg, e = .segChange g ∧ (s.seg g).spg = true) ∧
    t = { State.reset with ev := { State.reset.ev with flags := t.ev.flags }, segs := t.segs, pending := s.pending })

/-! ### The table port -/

/-- A TDATA read in range returns the word selected with OK and advances the index where auto-increment is set; a COMPLETION_HEAD read with
the queue empty returns 0 with EMPTY and sets no flag. A write of a read-only word changes nothing, shows READ_ONLY and sets TABLE_ERROR, and
the index advances as past an accepted word (R184, R117, R21, R147, R154). -/
def Obligations.TableReadsAndReadOnlyWords : Prop :=
  (∀ s : State, s.windowOpen = true → ¬ SelectsNothing s →
      (s.win.tselTable.toNat ≠ 2 ∨ s.cq.queue ≠ [] →
        ∃ (t : State) (w : TableWord), exec .tdataRead s = .next t ∧
          tableWord s.win.tselTable.toNat s.win.tselInstance.toNat s.win.tidxIndex.toNat = some w ∧
          t = { s with win := { accessed s .ok with readData := s.tableValue w } }) ∧
      (s.win.tselTable.toNat = 2 → s.cq.queue = [] →
        exec .tdataRead s = .next { s with win := { accessed s .empty with readData := 0 } })) ∧
  (∀ (s : State) (v : Word), s.windowOpen = true → SelectsReadOnly s →
      ∃ t : State, exec (.readOnlyTableWrite v) s = .next t ∧ TableRefused s t .readOnly)

/-- Every word of the seven tables, as a TDATA read returns it, and the status registers, EVT and EVTEN among them, hold their fields at the bits
of section 10.4 and of section 10.2, and their other bits read 0 (R1, R112, R116, R150, R154, R181). The enumerated fields have the codes of
section 10.2, of section 10.3 and of R113, and each flag has its bit. CTL shows reset-busy; while a reset is under way every other
register but WINID and WINREV reads 0, and while RST# is held every register (R188, R189). -/
def Obligations.WordsShowTheirFields : Prop :=
  CodesOfTheFields ∧
  (∀ s : State, s.windowOpen = true → WorkInv s → ReferenceInv s → MailboxInv s → CountInv s →
    (∀ k : TargetId, TargetWords s k) ∧ (∀ n : SlotId, SlotWords s n) ∧
    (∀ (n : SlotId) (rest : List SlotId), s.cq.queue = n :: rest → RecordWords s n) ∧
    (∀ g : Seg, ConfigWords s g) ∧ (∀ e : EntryId, ResponderWords s e) ∧ (∀ m : BoxId, MailboxWords s m) ∧ StatusRegisters s) ∧
  (∀ s : State, s.rstHeld = false →
    Fields (s.readRegister .ctl) [(0, 1, bit s.win.intEnable), (1, 1, bit s.win.dispatchHold), (15, 1, bit s.win.resetBusy)] ∧
    (∀ r : Register, s.win.resetBusy = true → r ≠ .winId → r ≠ .winRev → r ≠ .ctl → s.readRegister r = 0)) ∧
  (∀ (s : State) (r : Register), s.rstHeld = true → s.readRegister r = 0)

/-- An identity write is checked in the order of R4 and refused with the reason of the first check that fails, or stores the three fields; a write
that changes one of them clears what was learned, and one that changes none leaves the entry as it was (R2, R4, R5). -/
def Obligations.IdentityWritesAreChecked : Prop :=
  ∀ (s : State) (k : TargetId) (v : Word), s.windowOpen = true → Selects s 0 k.val 0 →
    let valid := v.getLsbD 15
    let segment := v.extractLsb' 8 3
    let address := v.extractLsb' 0 7
    let same := valid = (s.target k).valid ∧ segment = (s.target k).segment ∧ address = (s.target k).address
    let inUse := (s.target k).refCount ≠ 0 ∧ ¬ same
    let bad := valid = true ∧ ¬ (0x08 ≤ address.toNat ∧ address.toNat ≤ 0x77 ∧ segment.toNat ≤ 5)
    let duplicate := valid = true ∧
      ∃ j : TargetId, j ≠ k ∧ (s.target j).valid = true ∧ (s.target j).segment = segment ∧ (s.target j).address = address
    ∃ t : State, exec (.targetIdentityWrite v) s = .next t ∧
      (inUse → TableRefused s t .entryInUse) ∧
      (¬ inUse → bad → TableRefused s t .badAddress) ∧
      (¬ inUse → ¬ bad → duplicate → TableRefused s t .duplicate) ∧
      (¬ inUse → ¬ bad → ¬ duplicate → same → t = { s with win := accessed s .ok }) ∧
      (¬ inUse → ¬ bad → ¬ duplicate → ¬ same →
        t.win = accessed s .ok ∧
        OnlyEntry s t k { s.target k with
          valid := valid, segment := segment, address := address, presence := .unknown, failureCount := 0, lastFinal := none } ∧
        t = { s with win := t.win, targets := t.targets })

/-- A write of a target's policy, a segment's configuration, a match entry or the staging bytes is accepted in every state and stores the fields
of its word, with 0 stored as 1 where 1 is the least value, and changes nothing else (R6, R146, R147, R150, R154). -/
def Obligations.SettingsWritesAreStored : Prop :=
  (∀ (s : State) (k : TargetId) (v : Word), s.windowOpen = true → Selects s 0 k.val 1 →
      ∃ t : State, exec (.targetPolicyWrite v) s = .next t ∧ t.win = accessed s .ok ∧
        OnlyEntry s t k { s.target k with
          retryLimit := v.extractLsb' 0 3, threshold := v.extractLsb' 4 4
          speedClass := if v.getLsbD 8 then .fast else .standard } ∧
        t = { s with win := t.win, targets := t.targets }) ∧
  ((∀ (s : State) (g : Seg) (w : Nat) (v : Word), s.windowOpen = true → Selects s 3 g.val w → w ≤ 2 →
      ∃ t : State, exec (.segmentConfigWrite v) s = .next t ∧ t.win = accessed s .ok ∧
        OnlySegment s t g { s.seg g with config := (t.seg g).config } ∧ t = { s with win := t.win, segs := t.segs } ∧
        (w = 0 → (t.seg g).config = { (s.seg g).config with
          settleTime := notZero (v.extractLsb' 0 8), glitchWindow := v.extractLsb' 8 4
          lossPolicy := if v.getLsbD 12 then .flush else .hold, maxSpeed := if v.getLsbD 13 then .fast else .standard }) ∧
        (w = 1 → (t.seg g).config = { (s.seg g).config with
          stretchLimit := notZero (v.extractLsb' 0 8), busBusyLimit := notZero (v.extractLsb' 8 8) }) ∧
        (w = 2 → (t.seg g).config = { (s.seg g).config with backoffBase := notZero (v.extractLsb' 0 8) })) ∧
    (∀ (s : State) (e : EntryId) (w : Nat) (v : Word), s.windowOpen = true → Selects s 4 e.val w → w ≤ 1 →
      ∃ t : State, exec (.responderEntryWrite v) s = .next t ∧ t.win = accessed s .ok ∧ t = { s with win := t.win, entries := t.entries } ∧
        (∀ d : EntryId, d ≠ e → t.entry d = s.entry d) ∧
        (w = 0 → t.entry e = { s.entry e with
          address := v.extractLsb' 0 7, segment := v.extractLsb' 8 3, mailbox := ⟨(v.extractLsb' 12 2).toNat, (v.extractLsb' 12 2).isLt⟩
          readHold := v.getLsbD 14, enabled := v.getLsbD 15 }) ∧
        (w = 1 → t.entry e = { s.entry e with mask := v.extractLsb' 0 7, holdLimit := notZero (v.extractLsb' 8 8) })) ∧
    (∀ (s : State) (m : BoxId) (w : Nat) (v : Word), s.windowOpen = true → Selects s 6 m.val w → 1 ≤ w → w ≤ 16 →
      ∃ t : State, exec (.stagingBytesWrite v) s = .next t ∧ t.win = accessed s .ok ∧
        OnlyBox s t m { s.box m with staging := (t.box m).staging } ∧ t = { s with win := t.win, boxes := t.boxes } ∧
        ∀ i : Nat, i < 32 → byteAt (t.box m).staging i =
          if i = 2 * (w - 1) then v.extractLsb' 0 8 else if i = 2 * (w - 1) + 1 then v.extractLsb' 8 8
          else byteAt (s.box m).staging i))

/-- A write of a host-written word of a STAGED slot stores its fields unchecked, and of a slot in any other state is refused with NOT_STAGED
(R20, R21). -/
def Obligations.SlotFieldWritesNeedAStagedSlot : Prop :=
  ∀ (s : State) (n : SlotId) (w : Nat) (v : Word), s.windowOpen = true → Selects s 1 n.val w → 1 ≤ w → w ≤ 20 →
    ((s.slot n).state ≠ .staged → ∃ t : State, exec (.slotFieldWrite v) s = .next t ∧ TableRefused s t .notStaged) ∧
    ((s.slot n).state = .staged →
      ∃ t : State, exec (.slotFieldWrite v) s = .next t ∧ t.win = accessed s .ok ∧ t = { s with win := t.win, slots := t.slots } ∧
        (∀ m : SlotId, m ≠ n → t.slot m = s.slot m) ∧
        (w = 1 → t.slot n = { s.slot n with
          tag := v.extractLsb' 0 8, target := v.extractLsb' 8 6, notifyNow := v.getLsbD 15 }) ∧
        (w = 2 → t.slot n = { s.slot n with
          writeCount := v.extractLsb' 0 6, readCount := v.extractLsb' 6 6, kind := v.extractLsb' 12 3 }) ∧
        (w = 3 → t.slot n = { s.slot n with pollMask := v.extractLsb' 0 8, pollMatch := v.extractLsb' 8 8 }) ∧
        (w = 4 → t.slot n = { s.slot n with pollInterval := v.extractLsb' 0 8, pollLimit := v.extractLsb' 8 8 }) ∧
        (5 ≤ w →
          t.slot n = { s.slot n with writeList := (t.slot n).writeList } ∧
          ∀ i : Nat, i < 32 → byteAt (t.slot n).writeList i =
            if i = 2 * (w - 5) then v.extractLsb' 0 8 else if i = 2 * (w - 5) + 1 then v.extractLsb' 8 8
            else byteAt (s.slot n).writeList i))

/-- A TDATA access with table id 7, an instance beyond the table's last or an index at or beyond its word count shows RANGE and sets
TABLE_ERROR, reads 0 or writes nothing, and does not advance the index, with auto-increment set or clear, an empty queue or not (R185). -/
def Obligations.OutOfRangeAccesses : Prop :=
  ∀ (s : State) (v : Word), s.windowOpen = true → SelectsNothing s →
    (∃ t : State, exec .tdataRead s = .next t ∧ t.win = { s.win with tstat := .range, readData := 0 } ∧ Raises s t [.tableError] ∧
      t = { s with win := t.win, ev := t.ev }) ∧
    (∃ t : State, exec (.tdataWriteOutOfRange v) s = .next t ∧ t.win = { s.win with tstat := .range } ∧ Raises s t [.tableError] ∧
      t = { s with win := t.win, ev := t.ev })

/-! ### Registers, flags and time -/

/-- A write of EVT clears the flags written as 1. A clear of CQ_READY that changes it is answered by the queue: set again when the depth is at
least the threshold, else the timer starts from zero when records wait and the delay is nonzero; a 1 written while the flag is clear changes
nothing (R123, R171). -/
def Obligations.EventWritesClearFlags : Prop :=
  ∀ (s : State) (v : Word), s.windowOpen = true →
    ∃ t : State, exec (.evtWrite v) s = .next t ∧
      t.ev = { s.ev with flags := t.ev.flags } ∧ t.cq = { s.cq with timer := t.cq.timer } ∧ t = { s with ev := t.ev, cq := t.cq } ∧
      (∀ e : EventFlag, e ≠ .cqReady → (t.flag e = true ↔ s.flag e = true ∧ v.getLsbD e.bit = false)) ∧
      (v.getLsbD 0 = false ∨ s.flag .cqReady = false → t.flag .cqReady = s.flag .cqReady ∧ t.cq = s.cq) ∧
      (v.getLsbD 0 = true → s.flag .cqReady = true → s.cq.threshold.toNat ≤ s.depth → t.flag .cqReady = true ∧ t.cq.timer = none) ∧
      (v.getLsbD 0 = true → s.flag .cqReady = true → s.depth < s.cq.threshold.toNat → 1 ≤ s.depth → s.cq.delay ≠ 0 →
        t.flag .cqReady = false ∧ t.cq.timer = some (s.cq.delay.toNat * 100)) ∧
      (v.getLsbD 0 = true → s.flag .cqReady = true → s.depth < s.cq.threshold.toNat → s.depth = 0 ∨ s.cq.delay = 0 →
        t.flag .cqReady = false ∧ t.cq = s.cq)

/-- Writes of EVTEN and CTL store the enables, the global enable and the dispatch hold and act on no flag; INT# is asserted exactly when the
global enable is set and a flag is set whose enable is set, RST# apart (R173, R174). -/
def Obligations.EnablesAndTheInterruptLine : Prop :=
  (∀ (s : State) (v : Word), s.windowOpen = true →
    exec (.evtenWrite v) s = .next { s with ev := { s.ev with enables := v } }) ∧
  (∀ (s : State) (v : Word), s.windowOpen = true →
    exec (.ctlWrite v) s = .next { s with win := { s.win with intEnable := v.getLsbD 0, dispatchHold := v.getLsbD 1 } }) ∧
  (∀ s : State, s.intAsserted = true ↔
    s.rstHeld = false ∧ s.win.intEnable = true ∧ ∃ e : EventFlag, s.flag e = true ∧ s.ev.enables.getLsbD e.bit = true)

/-- A write of CQCFG stores the threshold, 0 as 1 and above 32 as 32, and the delay, and a read shows the stored values. The new threshold
is compared with the depth at once, and the delay then stops the timer, starts it, or leaves it running (R120). -/
def Obligations.QueueSettingsTakeEffect : Prop :=
  ∀ (s : State) (v : Word), s.windowOpen = true →
    let threshold := if v.extractLsb' 0 6 = 0 then 1 else if 32 < (v.extractLsb' 0 6).toNat then 32 else (v.extractLsb' 0 6).toNat
    let delay := v.extractLsb' 8 8
    ∃ t : State, exec (.cqcfgWrite v) s = .next t ∧ t.cq.queue = s.cq.queue ∧ t.cq.threshold.toNat = threshold ∧ t.cq.delay = delay ∧
      t.readRegister .cqCfg = delay ++ BitVec.ofNat 8 threshold ∧
      (∀ e : EventFlag, t.flag e = true ↔ s.flag e = true ∨ (e = .cqReady ∧ 1 ≤ s.depth ∧ threshold ≤ s.depth)) ∧
      (delay = 0 → t.cq.timer = none) ∧
      (delay ≠ 0 → s.cq.timer.isSome = true → s.flag .cqReady = false → t.flag .cqReady = false → t.cq.timer = s.cq.timer) ∧
      (s.flag .cqReady = false → t.flag .cqReady = true → t.cq.timer = none) ∧
      (delay ≠ 0 → s.cq.timer = none → s.cq.queue ≠ [] → t.flag .cqReady = false → t.cq.timer = some (delay.toNat * 100)) ∧
      (s.cq.timer = none → s.cq.queue = [] ∨ t.flag .cqReady = true → t.cq.timer = none) ∧
      t = { s with ev := { s.ev with flags := t.ev.flags }, cq := t.cq }

/-- The coalescing timer's expiry sets CQ_READY and stops the timer (R122). The time base rises by 1 and wraps after 4 294 967 295, and is held
at 0 while RST# is held (R175, R177). -/
def Obligations.TimersOfTheQueueAndTheTimeBase : Prop :=
  (∀ s : State, s.live = true → s.cq.timer.isSome = true →
    ∃ t : State, exec .coalescingTimerExpiry s = .next t ∧ Raises s t [.cqReady] ∧ t.cq = { s.cq with timer := none } ∧
      t = { s with ev := t.ev, cq := t.cq }) ∧
  (∀ s : State, s.rstHeld = false →
    ∃ t : State, exec .timeBaseCount s = .next t ∧ t.ev.timeBase.toNat = (s.ev.timeBase.toNat + 1) % 4294967296 ∧
      t = { s with ev := { s.ev with timeBase := t.ev.timeBase } }) ∧
  (∀ s : State, s.rstHeld = true → exec .timeBaseCount s = .next { s with ev := { s.ev with timeBase := 0 } })

/-- A read of TBLO returns the low half of the time base and captures its high half, which TBHI returns; while DEVICE_RESET runs it returns 0 and
captures nothing; no other command changes the snapshot but RST#, which leaves it 0 (R176). -/
def Obligations.TimeBaseReadsTakeASnapshot : Prop :=
  (∀ s : State, s.windowOpen = true →
    ∃ t : State, exec .tbloRead s = .next t ∧ t.win.readData = s.ev.timeBase.extractLsb' 0 16 ∧
      t.readRegister .tbHi = s.ev.timeBase.extractLsb' 16 16 ∧
      t = { s with win := { s.win with readData := t.win.readData }, ev := { s.ev with snapshot := t.ev.snapshot } }) ∧
  (∀ s : State, s.windowOpen = true → s.readRegister .tbHi = s.ev.snapshot) ∧
  (∀ s : State, s.win.resetBusy = true → exec .tbloRead s = .next { s with win := { s.win with readData := 0 } }) ∧
  (∀ (c : Instr) (s t : State), c ≠ .tbloRead → c ≠ .rstAssert → c ≠ .rstEnd → exec c s = .next t → t.ev.snapshot = s.ev.snapshot) ∧
  (∀ (c : Instr) (s t : State), c = .rstAssert ∨ (c = .rstEnd ∧ s.rstHeld = true) → exec c s = .next t → t.ev.snapshot = 0)

/-- A read or a write at an undefined offset sets WINDOW_ERROR and changes no other state; a read returns 0; while DEVICE_RESET runs it sets no
flag (R180). -/
def Obligations.UndefinedWordsSetWindowError : Prop :=
  (∀ (s : State) (w : Fin 8), s.windowOpen = true →
    ∃ t : State, exec (.undefinedWordAccess w .read) s = .next t ∧ Raises s t [.windowError] ∧
      t = { s with ev := t.ev, win := { s.win with readData := 0 } }) ∧
  (∀ (s : State) (w : Fin 8) (v : Word), s.windowOpen = true →
    ∃ t : State, exec (.undefinedWordAccess w (.write v)) s = .next t ∧ Raises s t [.windowError] ∧ t = { s with ev := t.ev }) ∧
  (∀ (s : State) (w : Fin 8) (v : Word), s.win.resetBusy = true →
    exec (.undefinedWordAccess w .read) s = .next { s with win := { s.win with readData := 0 } } ∧
    exec (.undefinedWordAccess w (.write v)) s = .next s)

/-- A strobe with LCS# asserted is one event on the word that LA5 to LA1 select, and with LCS# deasserted it is no access. A read returns the value
of the register at that moment, of TDATA or 0 at an undefined offset; a write is the row of its register, of the command that it names, or of the
table word selected (R179, R180, R182, R184, R185). Writes of TSEL, TIDX and CMDARG store any value and change nothing else, and reads return the
bits that carry a field; a write of a read-only register is ignored (R183, R179). That the row of a strobe goes to the front of the queue, and that a read without an effect
of its own is no step, are inferences of the model (notes/assumptions/9.md). -/
def Obligations.PlainRegistersStoreTheirFields : Prop :=
  (∀ (s : State) (v : Word), s.windowOpen = true →
    (∃ t : State, exec (.registerWrite .tsel v) s = .next t ∧ t.readRegister .tsel = v &&& 0x073F#16 ∧
      t = { s with win := { s.win with tselTable := t.win.tselTable, tselInstance := t.win.tselInstance } }) ∧
    (∃ t : State, exec (.registerWrite .tidx v) s = .next t ∧ t.readRegister .tidx = v &&& 0x803F#16 ∧
      t = { s with win := { s.win with tidxIndex := t.win.tidxIndex, tidxAuto := t.win.tidxAuto } }) ∧
    (∃ t : State, exec (.registerWrite .cmdArg v) s = .next t ∧ t.readRegister .cmdArg = v ∧
      t = { s with win := { s.win with cmdArg := t.win.cmdArg } }) ∧
    (∀ r : PlainRegister, r ≠ .tsel → r ≠ .tidx → r ≠ .cmdArg → exec (.registerWrite r v) s = .next s)) ∧
  (∀ (s : State) (la : BitVec 5) (a : Access), s.strobe false la a = s ∧ strobeData false la s = none) ∧
  (∀ (s : State) (offset : Nat) (r : Register), (offset, r) ∈ registerOffsets →
    strobeData true (lines offset) s = some (s.readRegister r) ∧
    (r ≠ .tbLo → s.strobe true (lines offset) .read = s) ∧ (r = .tbLo → StrobeIs s offset .read .tbloRead)) ∧
  (∀ s : State, StrobeIs s 0x1A .read .tdataRead ∧
    ∃ t : State, exec .tdataRead s = .next t ∧ strobeData true (lines 0x1A) s = some t.win.readData) ∧
  (∀ (s : State) (v : Word),
    (∀ (offset : Nat) (i : Instr), (offset, i) ∈ writeRows v → StrobeIs s offset (.write v) i) ∧
    (∀ (code : BitVec 8) (i : Instr), (code, i) ∈ commandRows → v.extractLsb' 0 8 = code → StrobeIs s 0x06 (.write v) i) ∧
    (v.extractLsb' 0 8 ∉ commandCodes → StrobeIs s 0x06 (.write v) (.unknownCommand (v.extractLsb' 0 8))) ∧
    (∃ i : Instr, TdataRow s v i ∧ StrobeIs s 0x1A (.write v) i)) ∧
  (∀ (s : State) (w : Fin 8) (v : Word),
    StrobeIs s (0x30 + 2 * w.val) .read (.undefinedWordAccess w .read) ∧ strobeData true (lines (0x30 + 2 * w.val)) s = some 0 ∧
    StrobeIs s (0x30 + 2 * w.val) (.write v) (.undefinedWordAccess w (.write v)))

/-! ### Power -/

/-- An assertion of SPGn is recorded; in DARK it moves the segment to SETTLING, and during a glitch watch it ends the watch and is counted. A
deassertion is recorded; in SETTLING it returns the segment to DARK, and in UP, RECOVERING and FAULTED with a nonzero glitch window it starts
the watch. The expiry of the settle timer brings the segment to UP (R129 to R135). -/
def Obligations.PowerQualifier : Prop :=
  (∀ (s : State) (g : Seg), (s.seg g).spg = false →
      ∃ t : State, exec (.spgAssert g) s = .next t ∧
        (s.live = true → (s.seg g).state = .dark →
          Raises s t [.segChange g] ∧ OnlySegment s t g (settling { s.seg g with spg := true }) ∧ t = { s with ev := t.ev, segs := t.segs }) ∧
        (s.live = true → (s.seg g).state = .up ∨ (s.seg g).state = .recovering ∨ (s.seg g).state = .faulted →
          (s.seg g).glitchTimer.isSome = true →
          OnlySegment s t g { s.seg g with
            spg := true, glitchTimer := none
            glitchCount := if (s.seg g).glitchCount < 255 then (s.seg g).glitchCount + 1 else 255 } ∧ t = { s with segs := t.segs }) ∧
        (s.live = false ∨ (s.seg g).state = .offline →
          OnlySegment s t g { s.seg g with spg := true } ∧ t = { s with segs := t.segs })) ∧
  (∀ (s : State) (g : Seg), (s.seg g).spg = true →
      ∃ t : State, exec (.spgDeassert g) s = .next t ∧
        (s.live = true → (s.seg g).state = .settling →
          Raises s t [.segChange g] ∧
          OnlySegment s t g { s.seg g with
            spg := false, state := .dark, settleTimer := none, glitchTimer := none
            downMode := latchedMode (s.seg g).config.lossPolicy } ∧ t = { s with ev := t.ev, segs := t.segs }) ∧
        (s.live = true → (s.seg g).state = .up ∨ (s.seg g).state = .recovering ∨ (s.seg g).state = .faulted →
          (s.seg g).config.glitchWindow ≠ 0 →
          OnlySegment s t g { s.seg g with
            spg := false, glitchTimer := some ((s.seg g).config.glitchWindow.toNat * 1000) } ∧ t = { s with segs := t.segs }) ∧
        (s.live = false ∨ (s.seg g).state = .offline ∨ (s.seg g).state = .dark →
          OnlySegment s t g { s.seg g with spg := false } ∧ t = { s with segs := t.segs })) ∧
  (∀ (s : State) (g : Seg), s.live = true → (s.seg g).state = .settling → (s.seg g).settleTimer.isSome = true →
      ∃ t : State, exec (.settleTimerExpiry g) s = .next t ∧ Raises s t [.segChange g] ∧
        OnlySegment s t g { s.seg g with
          state := .up, downMode := .none, settleTimer := none, gate := .connected, known := false, ctx := { phase := .listen } } ∧
        t = { s with ev := t.ev, segs := t.segs })

/-- A segment whose power is lost enters DARK from UP, RECOVERING or FAULTED with every effect of a departure: at the expiry of the glitch
timer with SPGn still deasserted, and at a deassertion with glitch window 0 (R129, R133, R134, R87, R50, R167). -/
def Obligations.LossOfPowerDepartsToDark : Prop :=
  (∀ (s : State) (g : Seg), s.live = true → (s.seg g).state = .up ∨ (s.seg g).state = .recovering ∨ (s.seg g).state = .faulted →
    (s.seg g).glitchTimer.isSome = true → (s.seg g).spg = false →
    ∃ t : State, exec (.glitchTimerExpiry g) s = .next t ∧
      Departs s t g
        (outOfService { s.seg g with settleTimer := none, glitchTimer := none } .dark (latchedMode (s.seg g).config.lossPolicy))
        .segmentLost [.segChange g] ∧
      t = { s with ev := t.ev, cq := t.cq, slots := t.slots, targets := t.targets, segs := t.segs, boxes := t.boxes }) ∧
  (∀ (s : State) (g : Seg), s.live = true → (s.seg g).state = .up ∨ (s.seg g).state = .recovering ∨ (s.seg g).state = .faulted →
    (s.seg g).config.glitchWindow = 0 → (s.seg g).spg = true →
    ∃ t : State, exec (.spgDeassert g) s = .next t ∧
      Departs s t g
        (outOfService { s.seg g with spg := false, settleTimer := none, glitchTimer := none } .dark
          (latchedMode (s.seg g).config.lossPolicy))
        .segmentLost [.segChange g] ∧
      t = { s with ev := t.ev, cq := t.cq, slots := t.slots, targets := t.targets, segs := t.segs, boxes := t.boxes })

/-! ### Dispatch -/

/-- A head that carries a mark, names a quarantined target with a kind other than PROBE, or stands on a segment that is down and FLUSHING
leaves the list and completes, in this order of the checks, and one that none of them and no promotion takes waits (R46, R47). -/
def Obligations.HeadsCompleteOrWait : Prop :=
  ∀ (s : State) (g : Seg) (n : SlotId) (rest : List SlotId) (held : Nat), s.live = true → (s.seg g).list = n :: rest →
    (s.engine g).active = none →
    let quarantined := (s.entryOf n).presence = .quarantined ∧ ¬ HasKind (s.slot n) .probe
    ∃ t : State, exec (.headEvaluation g held) s = .next t ∧
      (∀ st : Status,
        (HasMark (s.slot n) st ∨ ((s.slot n).mark = .none ∧ quarantined ∧ st = .targetQuarantined) ∨
          ((s.slot n).mark = .none ∧ ¬ quarantined ∧ downAndFlushing (s.seg g) ∧ st = .segmentDown)) →
        Completes s t n (s.slot n) (s.entryOf n) st ∧ RaisesBesideReady s t [] ∧ OnlySegment s t g { s.seg g with list := rest } ∧
          t = { s with slots := t.slots, targets := t.targets, cq := t.cq, ev := t.ev, segs := t.segs }) ∧
      ((s.slot n).mark = .none → ¬ quarantined → ¬ downAndFlushing (s.seg g) →
        (s.seg g).state ≠ .up ∨ s.win.dispatchHold = true ∨ (s.engine g).state ≠ .idle → t = s)

/-- A head that no check completes, on an UP segment with the dispatch hold clear and the engine IDLE, becomes the active slot, and its first attempt
begins in the same event; the expiry of the backoff or the poll timer begins the next one. The address and the effective speed are fixed, and
the bus, as it is found, is recovered, taken, or waited for, while the Responder serves a transfer of another controller too (R48, R65 to R69,
R76, R77). That the time for which the lines have stood comes as the operand held is the model's choice (notes/assumptions/5.md). -/
def Obligations.AttemptsBegin : Prop :=
  (∀ (s : State) (g : Seg) (n : SlotId) (k : TargetId) (rest : List SlotId) (held : Nat), s.live = true →
      (s.seg g).list = n :: rest → (s.engine g).active = none → (s.slot n).mark = .none → s.targetIndex n = some k →
      (s.target k).presence ≠ .quarantined ∨ HasKind (s.slot n) .probe → (s.seg g).state = .up → s.win.dispatchHold = false →
      (s.engine g).state = .idle → (s.slot n).failures ≤ (s.target k).retryLimit.toNat → (s.seg g).known = true ∨ ServesNothing s g →
      ∃ t : State, exec (.headEvaluation g held) s = .next t ∧
        OnlySlot s t n { s.slot n with state := .active, bytesAccepted := 0, readData := [] } ∧
        OnlySegment s t g (metBus { s.seg g with list := rest } (attemptEngine s g n k none) held) ∧
        Raises s t (if Stuck (s.seg g) held then [.segChange g] else []) ∧
        t = { s with slots := t.slots, ev := t.ev, segs := t.segs }) ∧
  (∀ (i : Instr) (s : State) (g : Seg) (n : SlotId) (k : TargetId) (held : Nat), s.live = true →
      (i = .backoffTimerExpiry g held ∧ (s.engine g).state = .backoff ∧ (s.engine g).backoffTimer.isSome = true ∨
        i = .pollTimerExpiry g held ∧ (s.engine g).state = .pollWait ∧ (s.engine g).pollTimer.isSome = true) →
      (s.engine g).active = some n → (s.seg g).state = .up → (s.slot n).mark = .none → s.targetIndex n = some k →
      (s.slot n).failures ≤ (s.target k).retryLimit.toNat → (s.seg g).known = true ∨ ServesNothing s g →
      ∃ t : State, exec i s = .next t ∧
        OnlySlot s t n { s.slot n with bytesAccepted := 0, readData := [] } ∧
        OnlySegment s t g (metBus (s.seg g) (attemptEngine s g n k (s.engine g).lastFailure) held) ∧
        Raises s t (if Stuck (s.seg g) held then [.segChange g] else []) ∧
        t = { s with slots := t.slots, ev := t.ev, segs := t.segs })

/-- At the expiry of the backoff or the poll timer a marked slot completes with its mark's status, and an unmarked one whose failures count
exceeds the retry limit read then completes with its last failure status, without a start and without a further count (R65, R100, R80, R97). -/
def Obligations.AttemptsNotBegun : Prop :=
  ∀ (i : Instr) (s : State) (g : Seg) (n : SlotId) (k : TargetId) (held : Nat), s.live = true →
    (i = .backoffTimerExpiry g held ∧ (s.engine g).state = .backoff ∧ (s.engine g).backoffTimer.isSome = true ∨
      i = .pollTimerExpiry g held ∧ (s.engine g).state = .pollWait ∧ (s.engine g).pollTimer.isSome = true) →
    (s.engine g).active = some n → s.targetIndex n = some k →
    ∃ t : State, exec i s = .next t ∧
      (∀ st : Status, HasMark (s.slot n) st → Completes s t n (s.slot n) (s.target k) st) ∧
      (∀ f : Failure, (s.slot n).mark = .none → (s.target k).retryLimit.toNat < (s.slot n).failures → (s.engine g).lastFailure = some f →
        Completes s t n (s.slot n) (givenUp (s.target k) f) f.status) ∧
      ((s.slot n).mark ≠ .none ∨
          ((s.target k).retryLimit.toNat < (s.slot n).failures ∧ (s.engine g).lastFailure ≠ none) →
        RaisesBesideReady s t [] ∧ OnlySegment s t g { s.seg g with engine := {} } ∧
        t = { s with slots := t.slots, targets := t.targets, cq := t.cq, ev := t.ev, segs := t.segs })

/-! ### The engine on the wire -/

/-- The engine in WAIT_FREE sends its start when the bus is free for its speed, and not before (R67, R64), and ends its attempt BUS_BUSY, through
the failure evaluation, when the busy timer expires (R68, R102). That both lines have stood high for the bus-free interval is what the row
ENGINE_START says, the model's choice (notes/assumptions/5.md). -/
def Obligations.WaitFreeEnds : Prop :=
  (∀ (s : State) (g : Seg), s.live = true → (s.engine g).state = .waitFree → (s.seg g).state = .up →
    (LinesFree (s.seg g) → ServesNothing s g →
      ∃ t : State, exec (.engineStart g) s = .next t ∧ OnlySegment s t g (started (s.seg g) (s.engine g)) ∧
        t = { s with segs := t.segs }) ∧
    (¬ LinesFree (s.seg g) → exec (.engineStart g) s = .next s)) ∧
  (∀ (s : State) (g : Seg) (n : SlotId) (k : TargetId), s.live = true → (s.engine g).state = .waitFree →
    (s.engine g).busyTimer.isSome = true → (s.engine g).active = some n → s.targetIndex n = some k →
    ∃ t : State, exec (.busyTimerExpiry g) s = .next t ∧ Evaluates s t g n k .busBusy (s.seg g) [])

/-- The steps of each kind, for a slot that meets its length rule: after the first address byte, after the write bytes, and after a read byte
(R70 to R74); and the byte that the engine sends at each: the address with its direction bit, the address with a read bit after a repeated start,
and the bytes of the write list in order (R70, R72). -/
def Obligations.SequencesOfTheKinds : Prop :=
  (∀ (s : State) (g : Seg) (n : SlotId) (kind : Kind), (s.engine g).active = some n → HasKind (s.slot n) kind →
    ((s.engine g).pos = .address → s.engineByte g = some ((s.engine g).address ++
      (if kind = .read ∨ (kind = .blockRead ∧ (s.slot n).writeCount = 0) then 1#1 else 0#1))) ∧
    ((s.engine g).pos = .secondAddress → s.engineByte g = some ((s.engine g).address ++ 1#1)) ∧
    (∀ i : Nat, (s.engine g).pos = .writeByte i → s.engineByte g = some (byteAt (s.slot n).writeList i))) ∧
  (∀ x : Slot, ∀ kind : Kind, HasKind x kind → LengthRule kind x.writeCount.toNat x.readCount.toNat →
    (x.stepAfterAddress = match kind with
      | .probe => .closingStop
      | .read => .readByte 0
      | .write | .writeRead | .poll => .writeByte 0
      | .blockRead => if x.writeCount = 0 then .readByte 0 else .writeByte 0) ∧
    (x.firstDirection = if kind = .read ∨ (kind = .blockRead ∧ x.writeCount = 0) then .read else .write) ∧
    (∀ i : Nat, i < x.writeCount.toNat → x.stepAfterWrites i = .writeByte i) ∧
    (1 ≤ x.writeCount.toNat → x.stepAfterWrites x.writeCount.toNat = if kind = .write then .closingStop else .secondAddress) ∧
    (kind = .read ∨ kind = .writeRead → ∀ (i : Nat) (b : Byte), i < x.readCount.toNat →
      (x.lastRead i b = true ↔ i + 1 = x.readCount.toNat)) ∧
    (kind = .poll → ∀ b : Byte, x.lastRead 0 b = true) ∧
    (kind = .blockRead → ∀ b : Byte, (x.lastRead 0 b = true ↔ b.toNat = 0 ∨ 32 ≤ b.toNat)) ∧
    (kind = .blockRead → ∀ (i : Nat) (b c : Byte) (more : List Byte), x.readData = c :: more → 1 ≤ i → i ≤ c.toNat →
      (x.lastRead i b = true ↔ i = c.toNat)) ∧
    (∀ (i : Nat) (b : Byte), x.readFailure i b = if kind = .blockRead ∧ i = 0 ∧ 32 ≤ b.toNat then some .lengthError else none))

/-- An acknowledged address byte makes an UNKNOWN or ABSENT target PRESENT and lets the sequence go on; a NACK sends the engine to the closing
stop with NACK_ADDRESS and changes no presence. The context takes no further part in the transfer (R70, R93, R151). -/
def Obligations.AddressBytes : Prop :=
  ∀ (s : State) (g : Seg) (n : SlotId) (k : TargetId) (kind : Kind) (next : BytePos), s.live = true →
    HasKind (s.slot n) kind → LengthRule kind (s.slot n).writeCount.toNat (s.slot n).readCount.toNat → s.targetIndex n = some k →
    (Sending s g n .address ∧ next = (s.slot n).stepAfterAddress ∨ Sending s g n .secondAddress ∧ next = .readByte 0) →
    ((s.slot n).mark = .none ∨ next = .closingStop →
      ∃ t : State, exec (.engineAddressByte g true) s = .next t ∧
        OnlySegment s t g (clocked { s.seg g with ctx := { phase := .unaddressed } } { s.engine g with pos := next }) ∧
        OnlyEntry s t k { s.target k with
          presence := if (s.target k).presence = .unknown ∨ (s.target k).presence = .absent then .present
            else (s.target k).presence } ∧
        t = { s with targets := t.targets, segs := t.segs }) ∧
    (∃ t : State, exec (.engineAddressByte g false) s = .next t ∧
        OnlySegment s t g (clocked { s.seg g with ctx := { phase := .unaddressed } }
          { s.engine g with pos := .closingStop, met := some .nackAddress }) ∧
        t = { s with segs := t.segs })

/-- An acknowledged write byte raises the bytes accepted and the engine goes on, through a repeated start where the kind reads; a NACK sends it to the
closing stop with NACK_DATA (R70, R72). A read byte joins the read data; the last one is NACKed and the closing stop follows, with LENGTH_ERROR
for a count byte of 32 or more, and after any other the engine ACKs and goes on (R71, R73). That the repeated start belongs to the acknowledge
before it, with the context then in ADDRESS (notes/assumptions/13.md), and that a byte and its acknowledge are one row which leaves the NACK
recorded (notes/assumptions/14.md) are inferences of the model. -/
def Obligations.DataBytes : Prop :=
  (∀ (s : State) (g : Seg) (n : SlotId) (i : Nat) (next : BytePos), s.live = true → Sending s g n (.writeByte i) →
      next = (s.slot n).stepAfterWrites (i + 1) → ServesNothing s g →
      ((s.slot n).mark = .none ∨ next = .closingStop →
        ∃ t : State, exec (.engineWriteByte g true) s = .next t ∧
          OnlySlot s t n { s.slot n with bytesAccepted := (s.slot n).bytesAccepted + 1 } ∧
          OnlySegment s t g (clocked
            (if next = .secondAddress then { s.seg g with ctx := { phase := .address } } else s.seg g)
            { s.engine g with pos := next }) ∧
          t = { s with slots := t.slots, segs := t.segs }) ∧
      (∃ t : State, exec (.engineWriteByte g false) s = .next t ∧
          OnlySegment s t g (clocked (s.seg g) { s.engine g with pos := .closingStop, met := some .nackData }) ∧
          t = { s with segs := t.segs })) ∧
  (∀ (s : State) (g : Seg) (n : SlotId) (i : Nat) (b : Byte), s.live = true → Sending s g n (.readByte i) →
      ((s.slot n).lastRead i b = true →
        ∃ t : State, exec (.engineReadByte g b) s = .next t ∧
          OnlySlot s t n { s.slot n with readData := (s.slot n).readData ++ [b] } ∧
          OnlySegment s t g (clocked (s.seg g)
            { s.engine g with pos := .closingStop, met := (s.slot n).readFailure i b, nackOut := true }) ∧
          t = { s with slots := t.slots, segs := t.segs }) ∧
      ((s.slot n).lastRead i b = false → (s.slot n).mark = .none →
        ∃ t : State, exec (.engineReadByte g b) s = .next t ∧
          OnlySlot s t n { s.slot n with readData := (s.slot n).readData ++ [b] } ∧
          OnlySegment s t g (clocked (s.seg g) { s.engine g with pos := .readByte (i + 1) }) ∧
          t = { s with slots := t.slots, segs := t.segs }))

/-- A mark read at an acknowledge with which the sequence would go on completes the slot with the mark's status, and the engine stays in TRANSFER
without a slot to send its stop, after a NACK where the byte was a read byte (R79, R80). That a read byte and its acknowledge are one row, which
leaves that NACK recorded, is an inference of the model (notes/assumptions/14.md). -/
def Obligations.MarksEndTheTransfer : Prop :=
  ∀ (i : Instr) (s : State) (g : Seg) (n : SlotId) (k : TargetId) (st : Status) (x : Slot) (e : TargetEntry) (y : Segment) (nack : Bool),
    s.live = true → HasMark (s.slot n) st → s.targetIndex n = some k →
    ((∃ j : Nat, i = .engineWriteByte g true ∧ Sending s g n (.writeByte j) ∧ (s.slot n).stepAfterWrites (j + 1) ≠ .closingStop ∧
        x = { s.slot n with bytesAccepted := (s.slot n).bytesAccepted + 1 } ∧ e = s.target k ∧ y = s.seg g ∧ nack = false) ∨
     (∃ (j : Nat) (b : Byte), i = .engineReadByte g b ∧ Sending s g n (.readByte j) ∧ (s.slot n).lastRead j b = false ∧
        x = { s.slot n with readData := (s.slot n).readData ++ [b] } ∧ e = s.target k ∧ y = s.seg g ∧ nack = true) ∨
     (i = .engineAddressByte g true ∧
        (Sending s g n .address ∧ (s.slot n).stepAfterAddress ≠ .closingStop ∨ Sending s g n .secondAddress) ∧
        x = s.slot n ∧ y = { s.seg g with ctx := { phase := .unaddressed } } ∧ nack = false ∧
        e = { s.target k with
          presence := if (s.target k).presence = .unknown ∨ (s.target k).presence = .absent then .present
            else (s.target k).presence })) →
    ∃ t : State, exec i s = .next t ∧ Completes s t n x e st ∧ RaisesBesideReady s t [] ∧
      OnlySegment s t g (clocked y (closingEngine (s.engine g) .mark nack)) ∧
      t = { s with slots := t.slots, targets := t.targets, cq := t.cq, ev := t.ev, segs := t.segs }

/-- At the rise of the closing stop of a sequence that met no failure the target becomes PRESENT with count 0 and the slot completes OK, and the
engine is IDLE. A POLL compares its masked byte: a match completes it OK, a mismatch is counted and completes it POLL_EXPIRED at the poll
limit, ends it with its mark, or starts the poll wait (R74 to R77, R94, R103, R106). -/
def Obligations.ClosingStopsOfSuccess : Prop :=
  ∀ (s : State) (g : Seg) (n : SlotId) (k : TargetId), s.live = true → Sending s g n .closingStop → (s.engine g).met = none →
    s.targetIndex n = some k → ServesNothing s g →
    let credited : TargetEntry := { s.target k with presence := .present, failureCount := 0 }
    let matched := (s.slot n).readData.headD 0 &&& (s.slot n).pollMask = (s.slot n).pollMatch
    let counted : Slot := { s.slot n with pollsUsed := (s.slot n).pollsUsed + 1 }
    let below := (s.slot n).pollsUsed + 1 < (s.slot n).pollLimit.toNat
    ∃ t : State, exec (.closingStop g) s = .next t ∧
      (¬ HasKind (s.slot n) .poll ∨ matched → Completes s t n (s.slot n) credited .ok) ∧
      (HasKind (s.slot n) .poll → ¬ matched → ¬ below → Completes s t n counted credited .pollExpired) ∧
      (∀ st : Status, HasKind (s.slot n) .poll → ¬ matched → below → HasMark (s.slot n) st → Completes s t n counted credited st) ∧
      (¬ HasKind (s.slot n) .poll ∨ matched ∨ ¬ below ∨ (s.slot n).mark ≠ .none →
        OnlySegment s t g { stopped (s.seg g) with engine := {} }) ∧
      (HasKind (s.slot n) .poll → ¬ matched → below → (s.slot n).mark = .none →
        OnlySlot s t n counted ∧ OnlyEntry s t k credited ∧ t.cq = s.cq ∧ t.ev = s.ev ∧
        OnlySegment s t g { stopped (s.seg g) with
          engine := {
            state := .pollWait, active := some n, address := (s.engine g).address, speed := (s.engine g).speed
            lastFailure := (s.engine g).lastFailure, pollTimer := some ((s.slot n).pollInterval.toNat * 100) } }) ∧
      RaisesBesideReady s t [] ∧ t = { s with slots := t.slots, targets := t.targets, cq := t.cq, ev := t.ev, segs := t.segs }

/-- The failures of an attempt go to the failure evaluation where they are taken: those of the sequence at the rise of the closing stop, ARB_LOST at
the lost bit, BUS_STUCK at the rise of the stop of a recovery, after which the segment is UP again (R75, R76, R82, R84, R85, R96). A lost bit
leaves the clock recorded high and the data line low (notes/assumptions/6.md, an inference of the model). A bit can be lost only in a byte that
holds a 1 bit or in the NACK of a read byte, with the row saying that it was lost there (notes/assumptions/14.md, an inference of the model). -/
def Obligations.FailuresAreEvaluated : Prop :=
  ∀ (s : State) (g : Seg) (n : SlotId) (k : TargetId), s.live = true → s.targetIndex n = some k →
    (∀ f : Failure, Sending s g n .closingStop → (s.engine g).met = some f → ServesNothing s g →
      ∃ t : State, exec (.closingStop g) s = .next t ∧ Evaluates s t g n k f (stopped (s.seg g)) []) ∧
    (∀ i : Nat,
        (Sending s g n .address ∧ ((s.engine g).address ≠ 0 ∨ (s.slot n).firstDirection = .read)) ∨ Sending s g n .secondAddress ∨
        (Sending s g n (.writeByte i) ∧ byteAt (s.slot n).writeList i ≠ 0) ∨
        (Sending s g n .closingStop ∧ (s.engine g).nackOut = true) →
      ∃ t : State, exec (.arbitrationLost g) s = .next t ∧ Evaluates s t g n k .arbLost (dataLow (s.seg g)) []) ∧
    (∀ i : Nat, Sending s g n (.writeByte i) ∧ byteAt (s.slot n).writeList i = 0 ∨ Sending s g n (.readByte i) ∨
        (Sending s g n .closingStop ∧ (s.engine g).nackOut = false) →
      exec (.arbitrationLost g) s = .next s) ∧
    ((s.engine g).state = .recovery → (s.engine g).recoveryStop = true → (s.engine g).active = some n →
      ∃ t : State, exec (.recoveryStop g true) s = .next t ∧
        Evaluates s t g n k .busStuck
          { s.seg g with state := .up, downMode := .none, known := false, sclHigh := true, sdaHigh := true } [.segChange g])

/-- A stop or a repeated start whose data line does not rise, in an attempt or in the close after a mark, and a stuck bus met in WAIT_FREE put the
engine into RECOVERY and the segment into RECOVERING, with the outcome set aside, the slot kept and the receive context ended (R69, R75, R80,
R83, R137, R167). That the data line has been low for 2 ms is what the row STUCK_DETECTED says, the model's choice (notes/assumptions/5.md); that a
failed repeated start is STOP_FAILED at the second address byte is an inference of the model (notes/assumptions/13.md). -/
def Obligations.RecoveryIsEntered : Prop :=
  (∀ (s : State) (g : Seg), ¬ LinesStuck (s.seg g) → exec (.stuckDetected g) s = .next s) ∧
  ∀ (i : Instr) (s : State) (g : Seg), s.live = true → (s.seg g).state = .up →
    (i = .stuckDetected g ∧ (s.engine g).state = .waitFree ∧ LinesStuck (s.seg g) ∨
     (∃ n : SlotId, i = .stopFailed g ∧ (Sending s g n .closingStop ∨ Sending s g n .secondAddress)) ∨
     i = .stopFailed g ∧ (s.engine g).state = .transfer ∧ (s.engine g).closing = .mark) →
    ∃ t : State, exec i s = .next t ∧ KeepsWork s t ∧ EndsContext s t g ∧
      OnlySegment s t g (recovering (s.seg g) (s.engine g)) ∧
      (∀ e : EventFlag, e ≠ .inboundLost → (t.flag e = true ↔ s.flag e = true ∨ e = .segChange g)) ∧
      t = { s with ev := { s.ev with flags := t.ev.flags }, segs := t.segs, boxes := t.boxes }

/-- The closes without a slot end with the engine IDLE: after a mark when the stop rises, or when arbitration is lost in the NACK before it; after
OFFLINE when the stop ends, whether or not the line rises, with the lines then released (R80, R88). That STOP_FAILED is the row of the stop after
OFFLINE whose data line does not rise is an inference of the model (notes/assumptions/13.md), and so is what these rows record of the levels
(notes/assumptions/6.md). -/
def Obligations.SlotlessClosesEnd : Prop :=
  ∀ (s : State) (g : Seg), s.live = true → (s.engine g).state = .transfer →
    ((s.engine g).closing = .mark → ServesNothing s g →
      ∃ t : State, exec (.markCloseStop g) s = .next t ∧ OnlySegment s t g { stopped (s.seg g) with engine := {} } ∧
        t = { s with segs := t.segs }) ∧
    ((s.engine g).closing = .mark → (s.engine g).nackOut = true → (s.engine g).active = none →
      ∃ t : State, exec (.arbitrationLost g) s = .next t ∧ OnlySegment s t g { dataLow (s.seg g) with engine := {} } ∧
        t = { s with segs := t.segs }) ∧
    (∀ i : Instr, (s.engine g).closing = .offline → i = .offlineCloseStop g ∨ i = .stopFailed g →
      ∃ t : State, exec i s = .next t ∧
        OnlySegment s t g { s.seg g with
          gate := .released, known := false, sdaHigh := decide (i = .offlineCloseStop g), engine := {} } ∧
        t = { s with segs := t.segs })

/-- The expiry of the stretch timer puts the engine, with its slot's outcome STRETCH_TIMEOUT, into RELEASE_WAIT with the release timer of 50 ms, and
the clock seen high ends RELEASE_WAIT in the closing stop (R81, R82, R80). In a recovery a pulse after which the data line is high is followed by a
stop, a low line or a failed stop before the 9th pulse by the next pulse, and a rising stop without a slot by IDLE on an UP segment (R83, R84,
R138). A stretch timer that no stretch has started, or that the clock's rise has abandoned, does not expire (R63). How a stretch is reported and its
expiry offered is an inference of the model (notes/assumptions/6.md), and so is that the outcome STRETCH_TIMEOUT is kept for the rise of the closing
stop (notes/assumptions/11.md). -/
def Obligations.HeldClocksAndPulses : Prop :=
  (∀ (s : State) (g : Seg), s.live = true →
      ((s.engine g).stretchTimer = none → exec (.stretchTimerExpiry g) s = .next s) ∧
      ((s.engine g).state = .transfer → (s.engine g).closing = .none ∨ (s.engine g).closing = .mark →
        (s.engine g).stretchTimer.isSome = true →
        ∃ t : State, exec (.stretchTimerExpiry g) s = .next t ∧
          OnlySegment s t g { s.seg g with
            sclHigh := false
            engine := { s.engine g with
              state := .releaseWait, met := if (s.engine g).active = none then none else some .stretchTimeout, nackOut := false
              stretchTimer := none, releaseTimer := some 50000 } } ∧
          t = { s with segs := t.segs }) ∧
      ((s.engine g).state = .releaseWait →
        ∃ t : State, exec (.clockReleased g) s = .next t ∧
          OnlySegment s t g { s.seg g with
            sclHigh := true, engine := { s.engine g with state := .transfer, pos := .closingStop, releaseTimer := none } } ∧
          t = { s with segs := t.segs })) ∧
  (∀ (s : State) (g : Seg), s.live = true → (s.engine g).state = .recovery →
      (∀ high : Bool, (s.engine g).recoveryStop = false → high = true ∨ (s.engine g).pulses < 8 →
        ∃ t : State, exec (.recoveryPulse g high) s = .next t ∧
          OnlySegment s t g { s.seg g with
            sclHigh := true, sdaHigh := high
            engine := { s.engine g with pulses := (s.engine g).pulses + 1, recoveryStop := high, releaseTimer := none } } ∧
          t = { s with segs := t.segs }) ∧
      ((s.engine g).recoveryStop = true → (s.engine g).pulses < 9 →
        ∃ t : State, exec (.recoveryStop g false) s = .next t ∧
          OnlySegment s t g { s.seg g with
            sdaHigh := false, engine := { s.engine g with recoveryStop := false, releaseTimer := none } } ∧
          t = { s with segs := t.segs }) ∧
      ((s.engine g).recoveryStop = true → (s.engine g).active = none →
        ∃ t : State, exec (.recoveryStop g true) s = .next t ∧ Raises s t [.segChange g] ∧
          OnlySegment s t g { s.seg g with
            state := .up, downMode := .none, known := false, sclHigh := true, sdaHigh := true, engine := {} } ∧
          t = { s with ev := t.ev, segs := t.segs }))

/-- A segment enters FAULTED, with every effect of a departure and the glitch watch kept, when the release timer expires in RELEASE_WAIT or in a
recovery, when the data line is low after the 9th pulse, and when the stop after the 9th pulse fails (R82, R84, R89, R129, R139). A release timer
that is stopped, as it is in a recovery while no pulse or stop is held, does not expire (R83). How a held clock is reported and the expiry offered
is an inference of the model (notes/assumptions/6.md). -/
def Obligations.FaultsDepart : Prop :=
  (∀ (s : State) (g : Seg), (s.engine g).releaseTimer = none → exec (.releaseTimerExpiry g) s = .next s) ∧
  ∀ (i : Instr) (s : State) (g : Seg) (x : Segment), s.live = true →
    (i = .releaseTimerExpiry g ∧ ((s.engine g).state = .releaseWait ∨ (s.engine g).state = .recovery) ∧
        (s.engine g).releaseTimer.isSome = true ∧ x = { s.seg g with sclHigh := false } ∨
     i = .recoveryPulse g false ∧ (s.engine g).state = .recovery ∧ (s.engine g).recoveryStop = false ∧ 8 ≤ (s.engine g).pulses ∧
        x = { s.seg g with sclHigh := true, sdaHigh := false } ∨
     i = .recoveryStop g false ∧ (s.engine g).state = .recovery ∧ (s.engine g).recoveryStop = true ∧ 9 ≤ (s.engine g).pulses ∧
        x = { s.seg g with sdaHigh := false }) →
    ∃ t : State, exec i s = .next t ∧ Departs s t g (outOfService x .faulted .flushing) .segmentFault [.segChange g] ∧
      t = { s with ev := t.ev, cq := t.cq, slots := t.slots, targets := t.targets, segs := t.segs, boxes := t.boxes }

/-- A change of a line is recorded, in a transfer of another controller and on a segment that is not watched too: for an engine in WAIT_FREE with
no known transfer a low clock starts the busy timer and a rising clock abandons it (R64, R68). A fall or a rise of the data line with the clock high, outside the engine's own transfer, is a start or a stop (R62, R64).
The clock that an engine in its own attempt has released, seen low, starts the stretch timer with the stretch limit, and seen high ends the
stretch (R63); in a recovery it starts and ends the release timer of 50 ms (R83); at a stop after OFFLINE or for DEVICE_RESET it starts none (R88,
R91). A further report that the clock is low leaves a running timer as it is, and in RELEASE_WAIT the rise of the clock is CLOCK_RELEASED (R82). That the levels come to the machine as reports of this row is the
model's choice (notes/assumptions/6.md, 12.md). -/
def Obligations.LineChanges : Prop :=
  ∀ (s : State) (g : Seg) (high : Bool),
    (¬ HoldsBus (s.engine g) →
      ∃ t : State, exec (.lineChangeOutsideTransfer g .clock high) s = .next t ∧ t = { s with segs := t.segs } ∧
        OnlySegment s t g { s.seg g with
          sclHigh := high
          engine := { s.engine g with
            busyTimer :=
              if (s.engine g).state ≠ .waitFree ∨ (s.seg g).known = true then (s.engine g).busyTimer
              else if high then none
              else if (s.engine g).busyTimer = none then some ((s.seg g).config.busBusyLimit.toNat * 1000)
              else (s.engine g).busyTimer } }) ∧
    (s.live = true → (s.seg g).state = .up ∨ (s.seg g).state = .recovering → (s.engine g).state ≠ .transfer →
      (s.engine g).state ≠ .releaseWait → (s.ctx g).phase ≠ .holding → (s.seg g).sclHigh = true → (s.seg g).sdaHigh ≠ high →
      exec (.lineChangeOutsideTransfer g .data high) s = exec (if high then .remoteStop g else .remoteStart g) s) ∧
    (s.live = false ∨ ((s.seg g).state ≠ .up ∧ (s.seg g).state ≠ .recovering) ∨ (s.engine g).state = .transfer ∨
        (s.engine g).state = .releaseWait ∨ (s.ctx g).phase = .holding ∨ (s.seg g).sclHigh = false ∨ (s.seg g).sdaHigh = high →
      ∃ t : State, exec (.lineChangeOutsideTransfer g .data high) s = .next t ∧ t = { s with segs := t.segs } ∧
        OnlySegment s t g { s.seg g with sdaHigh := high }) ∧
    ((s.engine g).state = .transfer → (s.engine g).closing = .none ∨ (s.engine g).closing = .mark →
      ∃ t : State, exec (.lineChangeOutsideTransfer g .clock high) s = .next t ∧ t = { s with segs := t.segs } ∧
        OnlySegment s t g { s.seg g with
          sclHigh := high
          engine := { s.engine g with
            stretchTimer :=
              if high then none
              else if (s.engine g).stretchTimer = none then some ((s.seg g).config.stretchLimit.toNat * 1000)
              else (s.engine g).stretchTimer } }) ∧
    ((s.engine g).state = .transfer → (s.engine g).closing = .offline ∨ (s.engine g).closing = .deviceReset →
      ∃ t : State, exec (.lineChangeOutsideTransfer g .clock high) s = .next t ∧ t = { s with segs := t.segs } ∧
        OnlySegment s t g { s.seg g with sclHigh := high }) ∧
    ((s.engine g).state = .releaseWait → exec (.lineChangeOutsideTransfer g .clock high) s = .next s) ∧
    ((s.engine g).state = .recovery →
      ∃ t : State, exec (.lineChangeOutsideTransfer g .clock high) s = .next t ∧ t = { s with segs := t.segs } ∧
        OnlySegment s t g { s.seg g with
          sclHigh := high
          engine := { s.engine g with
            releaseTimer :=
              if high then none else if (s.engine g).releaseTimer = none then some 50000 else (s.engine g).releaseTimer } })

/-! ### Remote transfers -/

/-- A start, a repeated start or a stop of another controller ends the context's phase as its rule states. After a start the context receives an
address byte, the transfer is known, the data line low, and the bus is busy for an engine in WAIT_FREE, whose busy timer goes on in a transfer
known already and else starts; after a stop the context is in LISTEN, no transfer is known and a busy spell ends (R62, R151, R157, R160, R162,
R64, R68). On a RECOVERING segment the bus watch alone sees them (R64, R151). They are not taken while the engine controls the transfer (R86) or a
read is held (R161), an inference of the model (notes/assumptions/12.md). -/
def Obligations.RemoteStartsAndStops : Prop :=
  (∀ (i : Instr) (s : State) (g : Seg) (p : Phase), i = .remoteStart g ∨ i = .remoteRepeatedStart g → s.live = true → Serving s g p →
      p ≠ .holding → (s.engine g).state ≠ .recovery →
      ∃ t : State, exec i s = .next t ∧ EndsTransfer s t g ∧
        OnlySegment s t g { dataLow (s.seg g) with
          known := true, ctx := { phase := .address }
          engine := { s.engine g with
            busyTimer :=
              if (s.engine g).state = .waitFree ∧ ((s.seg g).known = false ∨ (s.engine g).busyTimer = none) then some ((s.seg g).config.busBusyLimit.toNat * 1000)
              else (s.engine g).busyTimer } } ∧
        t = { s with ev := t.ev, boxes := t.boxes, segs := t.segs }) ∧
  (∀ (s : State) (g : Seg) (p : Phase), s.live = true → Serving s g p → p ≠ .holding → (s.engine g).state ≠ .recovery →
      ∃ t : State, exec (.remoteStop g) s = .next t ∧ EndsTransfer s t g ∧
        OnlySegment s t g { s.seg g with
          known := false, sclHigh := true, sdaHigh := true, ctx := { phase := .listen }, engine := { s.engine g with busyTimer := none } } ∧
        t = { s with ev := t.ev, boxes := t.boxes, segs := t.segs }) ∧
  (∀ (s : State) (g : Seg), s.live = true → (s.seg g).state = .recovering → (s.engine g).state = .recovery → (s.ctx g).phase ≠ .holding →
      (∀ i : Instr, i = .remoteStart g ∨ i = .remoteRepeatedStart g →
        ∃ t : State, exec i s = .next t ∧ OnlySegment s t g { dataLow (s.seg g) with known := true } ∧ t = { s with segs := t.segs }) ∧
      ∃ t : State, exec (.remoteStop g) s = .next t ∧
        OnlySegment s t g { s.seg g with
          known := false, sclHigh := true, sdaHigh := true, engine := { s.engine g with busyTimer := none } } ∧
        t = { s with segs := t.segs }) ∧
  (∀ (i : Instr) (s : State) (g : Seg), i = .remoteStart g ∨ i = .remoteRepeatedStart g ∨ i = .remoteStop g →
      (s.engine g).state = .transfer ∨ (s.engine g).state = .releaseWait ∨ (s.ctx g).phase = .holding → exec i s = .next s)

/-- An address byte is matched against the table, the lowest-numbered entry first, and answered by the state of the entry's mailbox: a write takes
an EMPTY inbound buffer, a read takes a LOADED outbound buffer or is held on an EMPTY one with read-hold, any other match is NACKed with MB_REFUSED,
and no match is silent (R152, R153, R155, R158, R161). -/
def Obligations.RemoteAddresses : Prop :=
  ∀ (s : State) (g : Seg) (b : Byte), s.live = true → Serving s g .address →
    ∃ t : State, exec (.remoteAddressByte g b) s = .next t ∧
      ((∀ e : EntryId, ¬ Matches s e g (b.extractLsb' 1 7)) →
        OnlyContext s t g { phase := .unaddressed } ∧ t = { s with segs := t.segs }) ∧
      (∀ e : EntryId, FirstMatch s e g (b.extractLsb' 1 7) →
        let m := (s.entry e).mailbox
        let refused := OnlyContext s t g { phase := .unaddressed } ∧ Raises s t [.mbRefused] ∧ t = { s with segs := t.segs, ev := t.ev }
        (b.getLsbD 0 = false → (s.box m).inState ≠ .empty → refused) ∧
        (b.getLsbD 0 = false → (s.box m).inState = .empty →
          OnlyContext s t g (latched e (s.entry e) .write .writing none) ∧
          OnlyBox s t m { s.box m with inState := .filling, inLength := 0 } ∧ t = { s with segs := t.segs, boxes := t.boxes }) ∧
        (b.getLsbD 0 = true → (s.box m).outState = .loaded →
          OnlyContext s t g (latched e (s.entry e) .read .reading none) ∧
          OnlyBox s t m { s.box m with outState := .sending } ∧ t = { s with segs := t.segs, boxes := t.boxes }) ∧
        (b.getLsbD 0 = true → (s.box m).outState = .empty → ¬ Held s m → (s.entry e).readHold = true →
          OnlyContext s t g (latched e (s.entry e) .read .holding (some ((s.entry e).holdLimit.toNat * 1000))) ∧
          t = { s with segs := t.segs }) ∧
        (b.getLsbD 0 = true →
          ((s.box m).outState = .sending ∨ ((s.box m).outState = .empty ∧ (Held s m ∨ (s.entry e).readHold = false))) → refused))

/-- A byte of a remote write is stored and ACKed while fewer than 32 are, and from the 33rd on NACKed, with MB_OVERFLOW set once; the context counts
every byte received (R156, R151). A byte of a remote read comes from the buffer while it lasts and is FFh after it and in fill, with MB_UNDERFLOW
set once (R159, R162). The expiry of the hold timer serves the held read with the fill byte and sets MB_UNDERFLOW (R162). That a byte and the
remote controller's acknowledge are one row is an inference of the model (notes/assumptions/12.md). -/
def Obligations.RemoteDataBytes : Prop :=
  (∀ (s : State) (g : Seg) (b : Byte), s.live = true → Serving s g .writing →
      let m := (s.ctx g).mailbox
      ∃ t : State, exec (.remoteWriteByte g b) s = .next t ∧
        ((s.box m).inLength < 32 →
          OnlyContext s t g { s.ctx g with count := (s.ctx g).count + 1, acked := true } ∧
          OnlyBox s t m { s.box m with inLength := (s.box m).inLength + 1, inBuffer := (t.box m).inBuffer } ∧
          (∀ i : Nat, i < 32 → byteAt (t.box m).inBuffer i = if i = (s.box m).inLength then b else byteAt (s.box m).inBuffer i) ∧
          t = { s with segs := t.segs, boxes := t.boxes }) ∧
        (32 ≤ (s.box m).inLength →
          OnlyContext s t g { s.ctx g with count := (s.ctx g).count + 1, overflow := true, acked := false } ∧
          Raises s t (if (s.ctx g).overflow then [] else [.mbOverflow]) ∧ t = { s with segs := t.segs, ev := t.ev })) ∧
  (∀ (s : State) (g : Seg) (ack : Bool), s.live = true → Serving s g .reading → (s.ctx g).stopped = false →
      let box := s.box (s.ctx g).mailbox
      ∃ t : State, exec (.remoteReadByte g ack) s = .next t ∧
        ((s.ctx g).fill = false → (s.ctx g).count < box.outLength →
          OnlyContext s t g { s.ctx g with
            count := (s.ctx g).count + 1, sent := byteAt box.outBuffer (s.ctx g).count, stopped := !ack } ∧
          t = { s with segs := t.segs }) ∧
        ((s.ctx g).fill = true ∨ box.outLength ≤ (s.ctx g).count →
          OnlyContext s t g { s.ctx g with underflow := true, sent := 0xFF#8, stopped := !ack } ∧
          Raises s t (if (s.ctx g).underflow then [] else [.mbUnderflow]) ∧ t = { s with segs := t.segs, ev := t.ev })) ∧
  (∀ (s : State) (g : Seg), s.live = true → (s.ctx g).phase = .holding → (s.ctx g).holdTimer.isSome = true →
      ∃ t : State, exec (.holdTimerExpiry g) s = .next t ∧ Raises s t [.mbUnderflow] ∧
        OnlyContext s t g { s.ctx g with
          phase := .reading, count := 0, fill := true, underflow := true, stopped := false, holdTimer := none } ∧
        t = { s with segs := t.segs, ev := t.ev })

end
end

