-- ==== Sys2Proof/Laws/State.lean ====
section
/-! SUPPORT. What each named update of Machine/Ops.lean leaves in each named read: one lemma for a field or a unit under an update, so that no
proof unfolds a record update or a vector. -/

namespace Sys2Proof.Machine

/-! ### States are equal when their units are -/

/-- Two vectors of one length with equal elements are equal. -/
theorem vector_ext_fin {α : Type} {n : Nat} {u v : Vector α n} (h : ∀ i : Fin n, u[i] = v[i]) : u = v :=
  Vector.ext (fun i hi => h ⟨i, hi⟩)

/-- Two states with the same slots have the same vector of slots, and so for the other numbered units. -/
theorem slots_ext {s t : State} (h : ∀ n, t.slot n = s.slot n) : t.slots = s.slots := vector_ext_fin h

theorem targets_ext {s t : State} (h : ∀ k, t.target k = s.target k) : t.targets = s.targets := vector_ext_fin h

theorem segs_ext {s t : State} (h : ∀ g, t.seg g = s.seg g) : t.segs = s.segs := vector_ext_fin h

theorem entries_ext {s t : State} (h : ∀ e, t.entry e = s.entry e) : t.entries = s.entries := vector_ext_fin h

theorem boxes_ext {s t : State} (h : ∀ m, t.box m = s.box m) : t.boxes = s.boxes := vector_ext_fin h

/-- Two states are equal when their fields are. -/
theorem state_ext {s t : State} (win : t.win = s.win) (ev : t.ev = s.ev) (cq : t.cq = s.cq) (slots : t.slots = s.slots)
    (targets : t.targets = s.targets) (segs : t.segs = s.segs) (entries : t.entries = s.entries) (boxes : t.boxes = s.boxes)
    (rst : t.rstHeld = s.rstHeld) (pending : t.pending = s.pending) : t = s := by
  cases s; cases t; simp_all

/-! ### updSlot -/

@[simp] theorem updSlot_win (s : State) (n : SlotId) (f : Slot → Slot) : (s.updSlot n f).win = s.win := rfl

@[simp] theorem updSlot_ev (s : State) (n : SlotId) (f : Slot → Slot) : (s.updSlot n f).ev = s.ev := rfl

@[simp] theorem updSlot_cq (s : State) (n : SlotId) (f : Slot → Slot) : (s.updSlot n f).cq = s.cq := rfl

@[simp] theorem updSlot_targets (s : State) (n : SlotId) (f : Slot → Slot) : (s.updSlot n f).targets = s.targets := rfl

@[simp] theorem updSlot_segs (s : State) (n : SlotId) (f : Slot → Slot) : (s.updSlot n f).segs = s.segs := rfl

@[simp] theorem updSlot_entries (s : State) (n : SlotId) (f : Slot → Slot) : (s.updSlot n f).entries = s.entries := rfl

@[simp] theorem updSlot_boxes (s : State) (n : SlotId) (f : Slot → Slot) : (s.updSlot n f).boxes = s.boxes := rfl

@[simp] theorem updSlot_rstHeld (s : State) (n : SlotId) (f : Slot → Slot) : (s.updSlot n f).rstHeld = s.rstHeld := rfl

@[simp] theorem updSlot_pending (s : State) (n : SlotId) (f : Slot → Slot) : (s.updSlot n f).pending = s.pending := rfl

@[simp] theorem updSlot_slot (s : State) (n : SlotId) (f : Slot → Slot) (j : SlotId) :
    (s.updSlot n f).slot j = if j = n then f (s.slot n) else s.slot j := by
  simp only [State.slot, State.updSlot, Fin.getElem_fin, Vector.getElem_set, Fin.val_inj, eq_comm]

@[simp] theorem updSlot_target (s : State) (n : SlotId) (f : Slot → Slot) (j : TargetId) : (s.updSlot n f).target j = s.target j := rfl

@[simp] theorem updSlot_seg (s : State) (n : SlotId) (f : Slot → Slot) (j : Seg) : (s.updSlot n f).seg j = s.seg j := rfl

@[simp] theorem updSlot_entry (s : State) (n : SlotId) (f : Slot → Slot) (j : EntryId) : (s.updSlot n f).entry j = s.entry j := rfl

@[simp] theorem updSlot_box (s : State) (n : SlotId) (f : Slot → Slot) (j : BoxId) : (s.updSlot n f).box j = s.box j := rfl

@[simp] theorem updSlot_engine (s : State) (n : SlotId) (f : Slot → Slot) (j : Seg) : (s.updSlot n f).engine j = s.engine j := rfl

@[simp] theorem updSlot_ctx (s : State) (n : SlotId) (f : Slot → Slot) (j : Seg) : (s.updSlot n f).ctx j = s.ctx j := rfl

/-! ### updTarget -/

@[simp] theorem updTarget_win (s : State) (k : TargetId) (f : TargetEntry → TargetEntry) : (s.updTarget k f).win = s.win := rfl

@[simp] theorem updTarget_ev (s : State) (k : TargetId) (f : TargetEntry → TargetEntry) : (s.updTarget k f).ev = s.ev := rfl

@[simp] theorem updTarget_cq (s : State) (k : TargetId) (f : TargetEntry → TargetEntry) : (s.updTarget k f).cq = s.cq := rfl

@[simp] theorem updTarget_slots (s : State) (k : TargetId) (f : TargetEntry → TargetEntry) : (s.updTarget k f).slots = s.slots := rfl

@[simp] theorem updTarget_segs (s : State) (k : TargetId) (f : TargetEntry → TargetEntry) : (s.updTarget k f).segs = s.segs := rfl

@[simp] theorem updTarget_entries (s : State) (k : TargetId) (f : TargetEntry → TargetEntry) : (s.updTarget k f).entries = s.entries := rfl

@[simp] theorem updTarget_boxes (s : State) (k : TargetId) (f : TargetEntry → TargetEntry) : (s.updTarget k f).boxes = s.boxes := rfl

@[simp] theorem updTarget_rstHeld (s : State) (k : TargetId) (f : TargetEntry → TargetEntry) : (s.updTarget k f).rstHeld = s.rstHeld := rfl

@[simp] theorem updTarget_pending (s : State) (k : TargetId) (f : TargetEntry → TargetEntry) : (s.updTarget k f).pending = s.pending := rfl

@[simp] theorem updTarget_target (s : State) (k : TargetId) (f : TargetEntry → TargetEntry) (j : TargetId) :
    (s.updTarget k f).target j = if j = k then f (s.target k) else s.target j := by
  simp only [State.target, State.updTarget, Fin.getElem_fin, Vector.getElem_set, Fin.val_inj, eq_comm]

@[simp] theorem updTarget_slot (s : State) (k : TargetId) (f : TargetEntry → TargetEntry) (j : SlotId) : (s.updTarget k f).slot j = s.slot j := rfl

@[simp] theorem updTarget_seg (s : State) (k : TargetId) (f : TargetEntry → TargetEntry) (j : Seg) : (s.updTarget k f).seg j = s.seg j := rfl

@[simp] theorem updTarget_entry (s : State) (k : TargetId) (f : TargetEntry → TargetEntry) (j : EntryId) : (s.updTarget k f).entry j = s.entry j := rfl

@[simp] theorem updTarget_box (s : State) (k : TargetId) (f : TargetEntry → TargetEntry) (j : BoxId) : (s.updTarget k f).box j = s.box j := rfl

@[simp] theorem updTarget_engine (s : State) (k : TargetId) (f : TargetEntry → TargetEntry) (j : Seg) : (s.updTarget k f).engine j = s.engine j := rfl

@[simp] theorem updTarget_ctx (s : State) (k : TargetId) (f : TargetEntry → TargetEntry) (j : Seg) : (s.updTarget k f).ctx j = s.ctx j := rfl

@[simp] theorem updTarget_targetIndex (s : State) (k : TargetId) (f : TargetEntry → TargetEntry) (j : SlotId) : (s.updTarget k f).targetIndex j = s.targetIndex j := rfl

/-! ### updSeg -/

@[simp] theorem updSeg_win (s : State) (g : Seg) (f : Segment → Segment) : (s.updSeg g f).win = s.win := rfl

@[simp] theorem updSeg_ev (s : State) (g : Seg) (f : Segment → Segment) : (s.updSeg g f).ev = s.ev := rfl

@[simp] theorem updSeg_cq (s : State) (g : Seg) (f : Segment → Segment) : (s.updSeg g f).cq = s.cq := rfl

@[simp] theorem updSeg_slots (s : State) (g : Seg) (f : Segment → Segment) : (s.updSeg g f).slots = s.slots := rfl

@[simp] theorem updSeg_targets (s : State) (g : Seg) (f : Segment → Segment) : (s.updSeg g f).targets = s.targets := rfl

@[simp] theorem updSeg_entries (s : State) (g : Seg) (f : Segment → Segment) : (s.updSeg g f).entries = s.entries := rfl

@[simp] theorem updSeg_boxes (s : State) (g : Seg) (f : Segment → Segment) : (s.updSeg g f).boxes = s.boxes := rfl

@[simp] theorem updSeg_rstHeld (s : State) (g : Seg) (f : Segment → Segment) : (s.updSeg g f).rstHeld = s.rstHeld := rfl

@[simp] theorem updSeg_pending (s : State) (g : Seg) (f : Segment → Segment) : (s.updSeg g f).pending = s.pending := rfl

@[simp] theorem updSeg_seg (s : State) (g : Seg) (f : Segment → Segment) (j : Seg) :
    (s.updSeg g f).seg j = if j = g then f (s.seg g) else s.seg j := by
  simp only [State.seg, State.updSeg, Fin.getElem_fin, Vector.getElem_set, Fin.val_inj, eq_comm]

@[simp] theorem updSeg_slot (s : State) (g : Seg) (f : Segment → Segment) (j : SlotId) : (s.updSeg g f).slot j = s.slot j := rfl

@[simp] theorem updSeg_target (s : State) (g : Seg) (f : Segment → Segment) (j : TargetId) : (s.updSeg g f).target j = s.target j := rfl

@[simp] theorem updSeg_entry (s : State) (g : Seg) (f : Segment → Segment) (j : EntryId) : (s.updSeg g f).entry j = s.entry j := rfl

@[simp] theorem updSeg_box (s : State) (g : Seg) (f : Segment → Segment) (j : BoxId) : (s.updSeg g f).box j = s.box j := rfl

@[simp] theorem updSeg_targetIndex (s : State) (g : Seg) (f : Segment → Segment) (j : SlotId) : (s.updSeg g f).targetIndex j = s.targetIndex j := rfl

@[simp] theorem updSeg_engine (s : State) (g : Seg) (f : Segment → Segment) (j : Seg) :
    (s.updSeg g f).engine j = if j = g then (f (s.seg g)).engine else s.engine j := by
  simp only [State.engine, updSeg_seg]; split <;> rfl

@[simp] theorem updSeg_ctx (s : State) (g : Seg) (f : Segment → Segment) (j : Seg) :
    (s.updSeg g f).ctx j = if j = g then (f (s.seg g)).ctx else s.ctx j := by
  simp only [State.ctx, updSeg_seg]; split <;> rfl

/-! ### updEngine -/

@[simp] theorem updEngine_win (s : State) (g : Seg) (f : Engine → Engine) : (s.updEngine g f).win = s.win := rfl

@[simp] theorem updEngine_ev (s : State) (g : Seg) (f : Engine → Engine) : (s.updEngine g f).ev = s.ev := rfl

@[simp] theorem updEngine_cq (s : State) (g : Seg) (f : Engine → Engine) : (s.updEngine g f).cq = s.cq := rfl

@[simp] theorem updEngine_slots (s : State) (g : Seg) (f : Engine → Engine) : (s.updEngine g f).slots = s.slots := rfl

@[simp] theorem updEngine_targets (s : State) (g : Seg) (f : Engine → Engine) : (s.updEngine g f).targets = s.targets := rfl

@[simp] theorem updEngine_entries (s : State) (g : Seg) (f : Engine → Engine) : (s.updEngine g f).entries = s.entries := rfl

@[simp] theorem updEngine_boxes (s : State) (g : Seg) (f : Engine → Engine) : (s.updEngine g f).boxes = s.boxes := rfl

@[simp] theorem updEngine_rstHeld (s : State) (g : Seg) (f : Engine → Engine) : (s.updEngine g f).rstHeld = s.rstHeld := rfl

@[simp] theorem updEngine_pending (s : State) (g : Seg) (f : Engine → Engine) : (s.updEngine g f).pending = s.pending := rfl

@[simp] theorem updEngine_seg (s : State) (g : Seg) (f : Engine → Engine) (j : Seg) :
    (s.updEngine g f).seg j = if j = g then { s.seg g with engine := f (s.engine g) } else s.seg j := by
  simp only [State.updEngine, updSeg_seg]; rfl

@[simp] theorem updEngine_engine (s : State) (g : Seg) (f : Engine → Engine) (j : Seg) :
    (s.updEngine g f).engine j = if j = g then f (s.engine g) else s.engine j := by
  simp only [State.updEngine, updSeg_engine]; rfl

@[simp] theorem updEngine_ctx (s : State) (g : Seg) (f : Engine → Engine) (j : Seg) : (s.updEngine g f).ctx j = s.ctx j := by
  simp only [State.updEngine, updSeg_ctx]; split <;> simp_all [State.ctx]

@[simp] theorem updEngine_slot (s : State) (g : Seg) (f : Engine → Engine) (j : SlotId) : (s.updEngine g f).slot j = s.slot j := rfl

@[simp] theorem updEngine_target (s : State) (g : Seg) (f : Engine → Engine) (j : TargetId) : (s.updEngine g f).target j = s.target j := rfl

@[simp] theorem updEngine_entry (s : State) (g : Seg) (f : Engine → Engine) (j : EntryId) : (s.updEngine g f).entry j = s.entry j := rfl

@[simp] theorem updEngine_box (s : State) (g : Seg) (f : Engine → Engine) (j : BoxId) : (s.updEngine g f).box j = s.box j := rfl

@[simp] theorem updEngine_targetIndex (s : State) (g : Seg) (f : Engine → Engine) (j : SlotId) : (s.updEngine g f).targetIndex j = s.targetIndex j := rfl

/-! ### updCtx -/

@[simp] theorem updCtx_win (s : State) (g : Seg) (f : RxContext → RxContext) : (s.updCtx g f).win = s.win := rfl

@[simp] theorem updCtx_ev (s : State) (g : Seg) (f : RxContext → RxContext) : (s.updCtx g f).ev = s.ev := rfl

@[simp] theorem updCtx_cq (s : State) (g : Seg) (f : RxContext → RxContext) : (s.updCtx g f).cq = s.cq := rfl

@[simp] theorem updCtx_slots (s : State) (g : Seg) (f : RxContext → RxContext) : (s.updCtx g f).slots = s.slots := rfl

@[simp] theorem updCtx_targets (s : State) (g : Seg) (f : RxContext → RxContext) : (s.updCtx g f).targets = s.targets := rfl

@[simp] theorem updCtx_entries (s : State) (g : Seg) (f : RxContext → RxContext) : (s.updCtx g f).entries = s.entries := rfl

@[simp] theorem updCtx_boxes (s : State) (g : Seg) (f : RxContext → RxContext) : (s.updCtx g f).boxes = s.boxes := rfl

@[simp] theorem updCtx_rstHeld (s : State) (g : Seg) (f : RxContext → RxContext) : (s.updCtx g f).rstHeld = s.rstHeld := rfl

@[simp] theorem updCtx_pending (s : State) (g : Seg) (f : RxContext → RxContext) : (s.updCtx g f).pending = s.pending := rfl

@[simp] theorem updCtx_seg (s : State) (g : Seg) (f : RxContext → RxContext) (j : Seg) :
    (s.updCtx g f).seg j = if j = g then { s.seg g with ctx := f (s.ctx g) } else s.seg j := by
  simp only [State.updCtx, updSeg_seg]; rfl

@[simp] theorem updCtx_ctx (s : State) (g : Seg) (f : RxContext → RxContext) (j : Seg) :
    (s.updCtx g f).ctx j = if j = g then f (s.ctx g) else s.ctx j := by
  simp only [State.updCtx, updSeg_ctx]; rfl

@[simp] theorem updCtx_engine (s : State) (g : Seg) (f : RxContext → RxContext) (j : Seg) : (s.updCtx g f).engine j = s.engine j := by
  simp only [State.updCtx, updSeg_engine]; split <;> simp_all [State.engine]

@[simp] theorem updCtx_slot (s : State) (g : Seg) (f : RxContext → RxContext) (j : SlotId) : (s.updCtx g f).slot j = s.slot j := rfl

@[simp] theorem updCtx_target (s : State) (g : Seg) (f : RxContext → RxContext) (j : TargetId) : (s.updCtx g f).target j = s.target j := rfl

@[simp] theorem updCtx_entry (s : State) (g : Seg) (f : RxContext → RxContext) (j : EntryId) : (s.updCtx g f).entry j = s.entry j := rfl

@[simp] theorem updCtx_box (s : State) (g : Seg) (f : RxContext → RxContext) (j : BoxId) : (s.updCtx g f).box j = s.box j := rfl

@[simp] theorem updCtx_targetIndex (s : State) (g : Seg) (f : RxContext → RxContext) (j : SlotId) : (s.updCtx g f).targetIndex j = s.targetIndex j := rfl

/-! ### updEntry -/

@[simp] theorem updEntry_win (s : State) (e : EntryId) (f : MatchEntry → MatchEntry) : (s.updEntry e f).win = s.win := rfl

@[simp] theorem updEntry_ev (s : State) (e : EntryId) (f : MatchEntry → MatchEntry) : (s.updEntry e f).ev = s.ev := rfl

@[simp] theorem updEntry_cq (s : State) (e : EntryId) (f : MatchEntry → MatchEntry) : (s.updEntry e f).cq = s.cq := rfl

@[simp] theorem updEntry_slots (s : State) (e : EntryId) (f : MatchEntry → MatchEntry) : (s.updEntry e f).slots = s.slots := rfl

@[simp] theorem updEntry_targets (s : State) (e : EntryId) (f : MatchEntry → MatchEntry) : (s.updEntry e f).targets = s.targets := rfl

@[simp] theorem updEntry_segs (s : State) (e : EntryId) (f : MatchEntry → MatchEntry) : (s.updEntry e f).segs = s.segs := rfl

@[simp] theorem updEntry_boxes (s : State) (e : EntryId) (f : MatchEntry → MatchEntry) : (s.updEntry e f).boxes = s.boxes := rfl

@[simp] theorem updEntry_rstHeld (s : State) (e : EntryId) (f : MatchEntry → MatchEntry) : (s.updEntry e f).rstHeld = s.rstHeld := rfl

@[simp] theorem updEntry_pending (s : State) (e : EntryId) (f : MatchEntry → MatchEntry) : (s.updEntry e f).pending = s.pending := rfl

@[simp] theorem updEntry_entry (s : State) (e : EntryId) (f : MatchEntry → MatchEntry) (j : EntryId) :
    (s.updEntry e f).entry j = if j = e then f (s.entry e) else s.entry j := by
  simp only [State.entry, State.updEntry, Fin.getElem_fin, Vector.getElem_set, Fin.val_inj, eq_comm]

@[simp] theorem updEntry_slot (s : State) (e : EntryId) (f : MatchEntry → MatchEntry) (j : SlotId) : (s.updEntry e f).slot j = s.slot j := rfl

@[simp] theorem updEntry_target (s : State) (e : EntryId) (f : MatchEntry → MatchEntry) (j : TargetId) : (s.updEntry e f).target j = s.target j := rfl

@[simp] theorem updEntry_seg (s : State) (e : EntryId) (f : MatchEntry → MatchEntry) (j : Seg) : (s.updEntry e f).seg j = s.seg j := rfl

@[simp] theorem updEntry_box (s : State) (e : EntryId) (f : MatchEntry → MatchEntry) (j : BoxId) : (s.updEntry e f).box j = s.box j := rfl

@[simp] theorem updEntry_engine (s : State) (e : EntryId) (f : MatchEntry → MatchEntry) (j : Seg) : (s.updEntry e f).engine j = s.engine j := rfl

@[simp] theorem updEntry_ctx (s : State) (e : EntryId) (f : MatchEntry → MatchEntry) (j : Seg) : (s.updEntry e f).ctx j = s.ctx j := rfl

@[simp] theorem updEntry_targetIndex (s : State) (e : EntryId) (f : MatchEntry → MatchEntry) (j : SlotId) : (s.updEntry e f).targetIndex j = s.targetIndex j := rfl

/-! ### updBox -/

@[simp] theorem updBox_win (s : State) (m : BoxId) (f : Mailbox → Mailbox) : (s.updBox m f).win = s.win := rfl

@[simp] theorem updBox_ev (s : State) (m : BoxId) (f : Mailbox → Mailbox) : (s.updBox m f).ev = s.ev := rfl

@[simp] theorem updBox_cq (s : State) (m : BoxId) (f : Mailbox → Mailbox) : (s.updBox m f).cq = s.cq := rfl

@[simp] theorem updBox_slots (s : State) (m : BoxId) (f : Mailbox → Mailbox) : (s.updBox m f).slots = s.slots := rfl

@[simp] theorem updBox_targets (s : State) (m : BoxId) (f : Mailbox → Mailbox) : (s.updBox m f).targets = s.targets := rfl

@[simp] theorem updBox_segs (s : State) (m : BoxId) (f : Mailbox → Mailbox) : (s.updBox m f).segs = s.segs := rfl

@[simp] theorem updBox_entries (s : State) (m : BoxId) (f : Mailbox → Mailbox) : (s.updBox m f).entries = s.entries := rfl

@[simp] theorem updBox_rstHeld (s : State) (m : BoxId) (f : Mailbox → Mailbox) : (s.updBox m f).rstHeld = s.rstHeld := rfl

@[simp] theorem updBox_pending (s : State) (m : BoxId) (f : Mailbox → Mailbox) : (s.updBox m f).pending = s.pending := rfl

@[simp] theorem updBox_box (s : State) (m : BoxId) (f : Mailbox → Mailbox) (j : BoxId) :
    (s.updBox m f).box j = if j = m then f (s.box m) else s.box j := by
  simp only [State.box, State.updBox, Fin.getElem_fin, Vector.getElem_set, Fin.val_inj, eq_comm]

@[simp] theorem updBox_slot (s : State) (m : BoxId) (f : Mailbox → Mailbox) (j : SlotId) : (s.updBox m f).slot j = s.slot j := rfl

@[simp] theorem updBox_target (s : State) (m : BoxId) (f : Mailbox → Mailbox) (j : TargetId) : (s.updBox m f).target j = s.target j := rfl

@[simp] theorem updBox_seg (s : State) (m : BoxId) (f : Mailbox → Mailbox) (j : Seg) : (s.updBox m f).seg j = s.seg j := rfl

@[simp] theorem updBox_entry (s : State) (m : BoxId) (f : Mailbox → Mailbox) (j : EntryId) : (s.updBox m f).entry j = s.entry j := rfl

@[simp] theorem updBox_engine (s : State) (m : BoxId) (f : Mailbox → Mailbox) (j : Seg) : (s.updBox m f).engine j = s.engine j := rfl

@[simp] theorem updBox_ctx (s : State) (m : BoxId) (f : Mailbox → Mailbox) (j : Seg) : (s.updBox m f).ctx j = s.ctx j := rfl

@[simp] theorem updBox_targetIndex (s : State) (m : BoxId) (f : Mailbox → Mailbox) (j : SlotId) : (s.updBox m f).targetIndex j = s.targetIndex j := rfl

/-! ### updWin -/

@[simp] theorem updWin_ev (s : State) (f : Window → Window) : (s.updWin f).ev = s.ev := rfl

@[simp] theorem updWin_cq (s : State) (f : Window → Window) : (s.updWin f).cq = s.cq := rfl

@[simp] theorem updWin_slots (s : State) (f : Window → Window) : (s.updWin f).slots = s.slots := rfl

@[simp] theorem updWin_targets (s : State) (f : Window → Window) : (s.updWin f).targets = s.targets := rfl

@[simp] theorem updWin_segs (s : State) (f : Window → Window) : (s.updWin f).segs = s.segs := rfl

@[simp] theorem updWin_entries (s : State) (f : Window → Window) : (s.updWin f).entries = s.entries := rfl

@[simp] theorem updWin_boxes (s : State) (f : Window → Window) : (s.updWin f).boxes = s.boxes := rfl

@[simp] theorem updWin_rstHeld (s : State) (f : Window → Window) : (s.updWin f).rstHeld = s.rstHeld := rfl

@[simp] theorem updWin_pending (s : State) (f : Window → Window) : (s.updWin f).pending = s.pending := rfl

@[simp] theorem updWin_win (s : State) (f : Window → Window) : (s.updWin f).win = f s.win := rfl

@[simp] theorem updWin_slot (s : State) (f : Window → Window) (j : SlotId) : (s.updWin f).slot j = s.slot j := rfl

@[simp] theorem updWin_target (s : State) (f : Window → Window) (j : TargetId) : (s.updWin f).target j = s.target j := rfl

@[simp] theorem updWin_seg (s : State) (f : Window → Window) (j : Seg) : (s.updWin f).seg j = s.seg j := rfl

@[simp] theorem updWin_entry (s : State) (f : Window → Window) (j : EntryId) : (s.updWin f).entry j = s.entry j := rfl

@[simp] theorem updWin_box (s : State) (f : Window → Window) (j : BoxId) : (s.updWin f).box j = s.box j := rfl

@[simp] theorem updWin_engine (s : State) (f : Window → Window) (j : Seg) : (s.updWin f).engine j = s.engine j := rfl

@[simp] theorem updWin_ctx (s : State) (f : Window → Window) (j : Seg) : (s.updWin f).ctx j = s.ctx j := rfl

@[simp] theorem updWin_targetIndex (s : State) (f : Window → Window) (j : SlotId) : (s.updWin f).targetIndex j = s.targetIndex j := rfl

/-! ### updEv -/

@[simp] theorem updEv_win (s : State) (f : EventUnit → EventUnit) : (s.updEv f).win = s.win := rfl

@[simp] theorem updEv_cq (s : State) (f : EventUnit → EventUnit) : (s.updEv f).cq = s.cq := rfl

@[simp] theorem updEv_slots (s : State) (f : EventUnit → EventUnit) : (s.updEv f).slots = s.slots := rfl

@[simp] theorem updEv_targets (s : State) (f : EventUnit → EventUnit) : (s.updEv f).targets = s.targets := rfl

@[simp] theorem updEv_segs (s : State) (f : EventUnit → EventUnit) : (s.updEv f).segs = s.segs := rfl

@[simp] theorem updEv_entries (s : State) (f : EventUnit → EventUnit) : (s.updEv f).entries = s.entries := rfl

@[simp] theorem updEv_boxes (s : State) (f : EventUnit → EventUnit) : (s.updEv f).boxes = s.boxes := rfl

@[simp] theorem updEv_rstHeld (s : State) (f : EventUnit → EventUnit) : (s.updEv f).rstHeld = s.rstHeld := rfl

@[simp] theorem updEv_pending (s : State) (f : EventUnit → EventUnit) : (s.updEv f).pending = s.pending := rfl

@[simp] theorem updEv_ev (s : State) (f : EventUnit → EventUnit) : (s.updEv f).ev = f s.ev := rfl

@[simp] theorem updEv_slot (s : State) (f : EventUnit → EventUnit) (j : SlotId) : (s.updEv f).slot j = s.slot j := rfl

@[simp] theorem updEv_target (s : State) (f : EventUnit → EventUnit) (j : TargetId) : (s.updEv f).target j = s.target j := rfl

@[simp] theorem updEv_seg (s : State) (f : EventUnit → EventUnit) (j : Seg) : (s.updEv f).seg j = s.seg j := rfl

@[simp] theorem updEv_entry (s : State) (f : EventUnit → EventUnit) (j : EntryId) : (s.updEv f).entry j = s.entry j := rfl

@[simp] theorem updEv_box (s : State) (f : EventUnit → EventUnit) (j : BoxId) : (s.updEv f).box j = s.box j := rfl

@[simp] theorem updEv_engine (s : State) (f : EventUnit → EventUnit) (j : Seg) : (s.updEv f).engine j = s.engine j := rfl

@[simp] theorem updEv_ctx (s : State) (f : EventUnit → EventUnit) (j : Seg) : (s.updEv f).ctx j = s.ctx j := rfl

@[simp] theorem updEv_targetIndex (s : State) (f : EventUnit → EventUnit) (j : SlotId) : (s.updEv f).targetIndex j = s.targetIndex j := rfl

/-! ### updCq -/

@[simp] theorem updCq_win (s : State) (f : CompletionQueue → CompletionQueue) : (s.updCq f).win = s.win := rfl

@[simp] theorem updCq_ev (s : State) (f : CompletionQueue → CompletionQueue) : (s.updCq f).ev = s.ev := rfl

@[simp] theorem updCq_slots (s : State) (f : CompletionQueue → CompletionQueue) : (s.updCq f).slots = s.slots := rfl

@[simp] theorem updCq_targets (s : State) (f : CompletionQueue → CompletionQueue) : (s.updCq f).targets = s.targets := rfl

@[simp] theorem updCq_segs (s : State) (f : CompletionQueue → CompletionQueue) : (s.updCq f).segs = s.segs := rfl

@[simp] theorem updCq_entries (s : State) (f : CompletionQueue → CompletionQueue) : (s.updCq f).entries = s.entries := rfl

@[simp] theorem updCq_boxes (s : State) (f : CompletionQueue → CompletionQueue) : (s.updCq f).boxes = s.boxes := rfl

@[simp] theorem updCq_rstHeld (s : State) (f : CompletionQueue → CompletionQueue) : (s.updCq f).rstHeld = s.rstHeld := rfl

@[simp] theorem updCq_pending (s : State) (f : CompletionQueue → CompletionQueue) : (s.updCq f).pending = s.pending := rfl

@[simp] theorem updCq_cq (s : State) (f : CompletionQueue → CompletionQueue) : (s.updCq f).cq = f s.cq := rfl

@[simp] theorem updCq_slot (s : State) (f : CompletionQueue → CompletionQueue) (j : SlotId) : (s.updCq f).slot j = s.slot j := rfl

@[simp] theorem updCq_target (s : State) (f : CompletionQueue → CompletionQueue) (j : TargetId) : (s.updCq f).target j = s.target j := rfl

@[simp] theorem updCq_seg (s : State) (f : CompletionQueue → CompletionQueue) (j : Seg) : (s.updCq f).seg j = s.seg j := rfl

@[simp] theorem updCq_entry (s : State) (f : CompletionQueue → CompletionQueue) (j : EntryId) : (s.updCq f).entry j = s.entry j := rfl

@[simp] theorem updCq_box (s : State) (f : CompletionQueue → CompletionQueue) (j : BoxId) : (s.updCq f).box j = s.box j := rfl

@[simp] theorem updCq_engine (s : State) (f : CompletionQueue → CompletionQueue) (j : Seg) : (s.updCq f).engine j = s.engine j := rfl

@[simp] theorem updCq_ctx (s : State) (f : CompletionQueue → CompletionQueue) (j : Seg) : (s.updCq f).ctx j = s.ctx j := rfl

@[simp] theorem updCq_targetIndex (s : State) (f : CompletionQueue → CompletionQueue) (j : SlotId) : (s.updCq f).targetIndex j = s.targetIndex j := rfl

/-! ### The window and the wires -/

theorem live_iff (s : State) : s.live = true ↔ s.rstHeld = false ∧ s.win.resetBusy = false := by
  simp [State.live]

theorem windowOpen_iff (s : State) : s.windowOpen = true ↔ s.rstHeld = false ∧ s.win.resetBusy = false := by
  simp [State.windowOpen]

theorem onWindow_open {s : State} (f : State → State) (h : s.windowOpen = true) : onWindow f s = f s := by
  simp [onWindow, h]

theorem onWire_live {s : State} (f : State → State) (h : s.live = true) : onWire f s = f s := by
  simp [onWire, h]

/-! ### The target of a slot -/

theorem targetIndex_eq_some {s : State} {n : SlotId} {k : TargetId} :
    s.targetIndex n = some k ↔ (s.slot n).target.toNat = k.val := by
  unfold State.targetIndex
  split
  · simp [Fin.ext_iff]
  · simp; omega

theorem entryOf_eq {s : State} {n : SlotId} {k : TargetId} (h : s.targetIndex n = some k) : s.entryOf n = s.target k := by
  simp [State.entryOf, h]

theorem updEntryOf_eq {s : State} {n : SlotId} {k : TargetId} (f : TargetEntry → TargetEntry) (h : s.targetIndex n = some k) :
    s.updEntryOf n f = s.updTarget k f := by
  simp [State.updEntryOf, h]

/-- updEntryOf changes no more than the entries. -/
theorem updEntryOf_frame (s : State) (n : SlotId) (f : TargetEntry → TargetEntry) :
    s.updEntryOf n f = { s with targets := (s.updEntryOf n f).targets } := by
  unfold State.updEntryOf; split <;> rfl

@[simp] theorem updEntryOf_win (s : State) (n : SlotId) (f : TargetEntry → TargetEntry) : (s.updEntryOf n f).win = s.win := by
  rw [updEntryOf_frame]

@[simp] theorem updEntryOf_ev (s : State) (n : SlotId) (f : TargetEntry → TargetEntry) : (s.updEntryOf n f).ev = s.ev := by
  rw [updEntryOf_frame]

@[simp] theorem updEntryOf_cq (s : State) (n : SlotId) (f : TargetEntry → TargetEntry) : (s.updEntryOf n f).cq = s.cq := by
  rw [updEntryOf_frame]

@[simp] theorem updEntryOf_slots (s : State) (n : SlotId) (f : TargetEntry → TargetEntry) : (s.updEntryOf n f).slots = s.slots := by
  rw [updEntryOf_frame]

@[simp] theorem updEntryOf_segs (s : State) (n : SlotId) (f : TargetEntry → TargetEntry) : (s.updEntryOf n f).segs = s.segs := by
  rw [updEntryOf_frame]

@[simp] theorem updEntryOf_entries (s : State) (n : SlotId) (f : TargetEntry → TargetEntry) : (s.updEntryOf n f).entries = s.entries := by
  rw [updEntryOf_frame]

@[simp] theorem updEntryOf_boxes (s : State) (n : SlotId) (f : TargetEntry → TargetEntry) : (s.updEntryOf n f).boxes = s.boxes := by
  rw [updEntryOf_frame]

@[simp] theorem updEntryOf_rstHeld (s : State) (n : SlotId) (f : TargetEntry → TargetEntry) : (s.updEntryOf n f).rstHeld = s.rstHeld := by
  rw [updEntryOf_frame]

@[simp] theorem updEntryOf_pending (s : State) (n : SlotId) (f : TargetEntry → TargetEntry) : (s.updEntryOf n f).pending = s.pending := by
  rw [updEntryOf_frame]

@[simp] theorem updEntryOf_slot (s : State) (n : SlotId) (f : TargetEntry → TargetEntry) (j : SlotId) :
    (s.updEntryOf n f).slot j = s.slot j := by
  rw [updEntryOf_frame]; rfl

@[simp] theorem updEntryOf_seg (s : State) (n : SlotId) (f : TargetEntry → TargetEntry) (j : Seg) :
    (s.updEntryOf n f).seg j = s.seg j := by
  rw [updEntryOf_frame]; rfl

@[simp] theorem updEntryOf_entry (s : State) (n : SlotId) (f : TargetEntry → TargetEntry) (j : EntryId) :
    (s.updEntryOf n f).entry j = s.entry j := by
  rw [updEntryOf_frame]; rfl

@[simp] theorem updEntryOf_box (s : State) (n : SlotId) (f : TargetEntry → TargetEntry) (j : BoxId) :
    (s.updEntryOf n f).box j = s.box j := by
  rw [updEntryOf_frame]; rfl

@[simp] theorem updEntryOf_engine (s : State) (n : SlotId) (f : TargetEntry → TargetEntry) (j : Seg) :
    (s.updEntryOf n f).engine j = s.engine j := by
  rw [updEntryOf_frame]; rfl

@[simp] theorem updEntryOf_ctx (s : State) (n : SlotId) (f : TargetEntry → TargetEntry) (j : Seg) :
    (s.updEntryOf n f).ctx j = s.ctx j := by
  rw [updEntryOf_frame]; rfl

@[simp] theorem updEntryOf_targetIndex (s : State) (n : SlotId) (f : TargetEntry → TargetEntry) (j : SlotId) :
    (s.updEntryOf n f).targetIndex j = s.targetIndex j := by
  rw [updEntryOf_frame]; rfl

theorem updEntryOf_target (s : State) (n : SlotId) (f : TargetEntry → TargetEntry) (k : TargetId) :
    (s.updEntryOf n f).target k = if s.targetIndex n = some k then f (s.target k) else s.target k := by
  unfold State.updEntryOf
  cases h : s.targetIndex n with
  | none => simp
  | some j => by_cases hk : k = j <;> simp [hk, eq_comm]

/-! ### Flags -/

/-- The bits of the flags are the sixteen bits of EVT, each of its own flag (section 10.2). -/
theorem bit_lt (e : EventFlag) : e.bit < 16 := by
  cases e <;> simp [EventFlag.bit]; omega

theorem bit_inj {e f : EventFlag} : e.bit = f.bit ↔ e = f := by
  constructor
  · intro h
    cases e <;> cases f <;> simp only [EventFlag.bit] at h <;>
      first | rfl | omega | exact congrArg EventFlag.segChange (Fin.ext (by omega))
  · rintro rfl; rfl

/-- raise sets its flag and no other. -/
@[simp] theorem flag_raise (s : State) (e f : EventFlag) : (s.raise e).flag f = (s.flag f || decide (f = e)) := by
  have h := bit_lt f
  simp only [State.flag, State.raise, updEv_ev, BitVec.getLsbD_or, BitVec.getLsbD_twoPow]
  congr 1
  by_cases he : f = e
  · simp [he, bit_lt e]
  · have hb : ¬ e.bit = f.bit := fun hc => he (bit_inj.mp hc).symm
    simp [he, hb]

/-- raise changes nothing but the flags. -/
theorem raise_frame (s : State) (e : EventFlag) :
    s.raise e = { s with ev := { s.ev with flags := (s.raise e).ev.flags } } := rfl

@[simp] theorem raise_win (s : State) (e : EventFlag) : (s.raise e).win = s.win := rfl

@[simp] theorem raise_cq (s : State) (e : EventFlag) : (s.raise e).cq = s.cq := rfl

@[simp] theorem raise_slots (s : State) (e : EventFlag) : (s.raise e).slots = s.slots := rfl

@[simp] theorem raise_targets (s : State) (e : EventFlag) : (s.raise e).targets = s.targets := rfl

@[simp] theorem raise_segs (s : State) (e : EventFlag) : (s.raise e).segs = s.segs := rfl

@[simp] theorem raise_entries (s : State) (e : EventFlag) : (s.raise e).entries = s.entries := rfl

@[simp] theorem raise_boxes (s : State) (e : EventFlag) : (s.raise e).boxes = s.boxes := rfl

@[simp] theorem raise_rstHeld (s : State) (e : EventFlag) : (s.raise e).rstHeld = s.rstHeld := rfl

@[simp] theorem raise_pending (s : State) (e : EventFlag) : (s.raise e).pending = s.pending := rfl

@[simp] theorem raise_slot (s : State) (e : EventFlag) (j : SlotId) : (s.raise e).slot j = s.slot j := rfl

@[simp] theorem raise_target (s : State) (e : EventFlag) (j : TargetId) : (s.raise e).target j = s.target j := rfl

@[simp] theorem raise_seg (s : State) (e : EventFlag) (j : Seg) : (s.raise e).seg j = s.seg j := rfl

@[simp] theorem raise_entry (s : State) (e : EventFlag) (j : EntryId) : (s.raise e).entry j = s.entry j := rfl

@[simp] theorem raise_box (s : State) (e : EventFlag) (j : BoxId) : (s.raise e).box j = s.box j := rfl

@[simp] theorem raise_engine (s : State) (e : EventFlag) (j : Seg) : (s.raise e).engine j = s.engine j := rfl

@[simp] theorem raise_ctx (s : State) (e : EventFlag) (j : Seg) : (s.raise e).ctx j = s.ctx j := rfl

@[simp] theorem raise_targetIndex (s : State) (e : EventFlag) (j : SlotId) : (s.raise e).targetIndex j = s.targetIndex j := rfl

@[simp] theorem raise_enables (s : State) (e : EventFlag) : (s.raise e).ev.enables = s.ev.enables := rfl

@[simp] theorem raise_timeBase (s : State) (e : EventFlag) : (s.raise e).ev.timeBase = s.ev.timeBase := rfl

@[simp] theorem raise_snapshot (s : State) (e : EventFlag) : (s.raise e).ev.snapshot = s.ev.snapshot := rfl

@[simp] theorem updSlot_flag (s : State) (n : SlotId) (f : Slot → Slot) (c : EventFlag) : (s.updSlot n f).flag c = s.flag c := rfl

@[simp] theorem updTarget_flag (s : State) (k : TargetId) (f : TargetEntry → TargetEntry) (c : EventFlag) : (s.updTarget k f).flag c = s.flag c := rfl

@[simp] theorem updSeg_flag (s : State) (g : Seg) (f : Segment → Segment) (c : EventFlag) : (s.updSeg g f).flag c = s.flag c := rfl

@[simp] theorem updEntry_flag (s : State) (e : EntryId) (f : MatchEntry → MatchEntry) (c : EventFlag) : (s.updEntry e f).flag c = s.flag c := rfl

@[simp] theorem updBox_flag (s : State) (m : BoxId) (f : Mailbox → Mailbox) (c : EventFlag) : (s.updBox m f).flag c = s.flag c := rfl

@[simp] theorem updEngine_flag (s : State) (g : Seg) (f : Engine → Engine) (c : EventFlag) : (s.updEngine g f).flag c = s.flag c := rfl

@[simp] theorem updCtx_flag (s : State) (g : Seg) (f : RxContext → RxContext) (c : EventFlag) : (s.updCtx g f).flag c = s.flag c := rfl

@[simp] theorem updWin_flag (s : State) (f : Window → Window) (c : EventFlag) : (s.updWin f).flag c = s.flag c := rfl

@[simp] theorem updCq_flag (s : State) (f : CompletionQueue → CompletionQueue) (c : EventFlag) : (s.updCq f).flag c = s.flag c := rfl

@[simp] theorem updEntryOf_flag (s : State) (n : SlotId) (f : TargetEntry → TargetEntry) (c : EventFlag) :
    (s.updEntryOf n f).flag c = s.flag c := by
  rw [updEntryOf_frame]; rfl

/-- Two Event Units with the same flags have the same flag word. -/
theorem flags_ext {x y : Word} (h : ∀ e : EventFlag, x.getLsbD e.bit = y.getLsbD e.bit) : x = y := by
  apply BitVec.eq_of_getLsbD_eq
  intro i hi
  have hb : ∃ e : EventFlag, e.bit = i := by
    have : i = 0 ∨ i = 1 ∨ i = 2 ∨ i = 3 ∨ i = 4 ∨ i = 5 ∨ i = 6 ∨ i = 7 ∨ i = 8 ∨ i = 9 ∨ i = 10 ∨ i = 11 ∨ i = 12 ∨ i = 13 ∨
        i = 14 ∨ i = 15 := by omega
    rcases this with h|h|h|h|h|h|h|h|h|h|h|h|h|h|h|h <;> subst h
    exacts [⟨.cqReady, rfl⟩, ⟨.segChange 0, rfl⟩, ⟨.segChange 1, rfl⟩, ⟨.segChange 2, rfl⟩, ⟨.segChange 3, rfl⟩,
      ⟨.segChange 4, rfl⟩, ⟨.segChange 5, rfl⟩, ⟨.targetQuarantined, rfl⟩, ⟨.mbInbound, rfl⟩, ⟨.mbOverflow, rfl⟩, ⟨.mbUnderflow, rfl⟩,
      ⟨.mbRefused, rfl⟩, ⟨.inboundLost, rfl⟩, ⟨.cmdError, rfl⟩, ⟨.windowError, rfl⟩, ⟨.tableError, rfl⟩]
  obtain ⟨e, rfl⟩ := hb
  exact h e

end Sys2Proof.Machine
end

