-- ==== Sys2Proof/Laws/Queue.lean ====
section
/-! SUPPORT. What the Completion Queue's operations and the completion of a slot do: appendRecord, clearFlags, configureQueue and
completeSlot, each said once. -/

namespace Sys2Proof.Machine

open Sys2Proof.Claims

/-! ### signalQueue -/

/-- signalQueue sets CQ_READY, stops the timer, and does nothing else. -/
theorem signalQueue_eq (s : State) :
    s.signalQueue = { s with ev := { s.ev with flags := s.signalQueue.ev.flags }, cq := { s.cq with timer := none } } := rfl

@[simp] theorem signalQueue_flag (s : State) (e : EventFlag) :
    s.signalQueue.flag e = (s.flag e || decide (e = .cqReady)) := by
  simp [State.signalQueue]

/-! ### startCoalescing -/

theorem startCoalescing_eq (s : State) :
    s.startCoalescing =
      { s with cq := { s.cq with timer := if s.cq.delay = 0 then s.cq.timer else some (s.cq.delay.toNat * 100) } } := by
  unfold State.startCoalescing
  by_cases h : s.cq.delay = 0
  · rw [if_pos h, if_pos h]
  · rw [if_neg h, if_neg h]; rfl

@[simp] theorem startCoalescing_flag (s : State) (e : EventFlag) : s.startCoalescing.flag e = s.flag e := by
  rw [startCoalescing_eq]; rfl

/-! ### appendRecord -/

/-- The state that an append leaves, by the two conditions of R121 and R122. -/
theorem appendRecord_eq (s : State) (n : SlotId) :
    s.appendRecord n =
      if SignalsAtOnce s n then
        { s with
          ev := { s.ev with flags := s.ev.flags ||| BitVec.twoPow 16 0 }
          cq := { s.cq with queue := s.cq.queue ++ [n], timer := none } }
      else if s.cq.queue = [] ∧ s.flag .cqReady = false ∧ s.cq.delay ≠ 0 then
        { s with cq := { s.cq with queue := s.cq.queue ++ [n], timer := some (s.cq.delay.toNat * 100) } }
      else { s with cq := { s.cq with queue := s.cq.queue ++ [n] } } := by
  have hc : (((s.slot n).notifyNow || decide (s.cq.threshold.toNat ≤ (s.cq.queue ++ [n]).length)) = true) ↔ SignalsAtOnce s n := by
    simp [SignalsAtOnce]
  have hunfold : s.appendRecord n =
      if ((s.slot n).notifyNow || decide (s.cq.threshold.toNat ≤ (s.cq.queue ++ [n]).length)) = true then
        (s.updCq (fun q => { q with queue := q.queue ++ [n] })).signalQueue
      else if (s.cq.queue.isEmpty && !s.flag .cqReady) = true then
        (s.updCq (fun q => { q with queue := q.queue ++ [n] })).startCoalescing
      else s.updCq (fun q => { q with queue := q.queue ++ [n] }) := rfl
  rw [hunfold]
  by_cases h : SignalsAtOnce s n
  · rw [if_pos (hc.mpr h), if_pos h]; rfl
  · rw [if_neg (mt hc.mp h), if_neg h]
    by_cases hq : s.cq.queue = [] ∧ s.flag .cqReady = false
    · rw [if_pos (show (s.cq.queue.isEmpty && !s.flag .cqReady) = true by simp [hq.1, hq.2]), startCoalescing_eq]
      by_cases hd : s.cq.delay = 0
      · rw [if_neg (show ¬ (s.cq.queue = [] ∧ s.flag .cqReady = false ∧ s.cq.delay ≠ 0) from fun h => h.2.2 hd),
          if_pos (show (s.updCq (fun q => { q with queue := q.queue ++ [n] })).cq.delay = 0 from hd)]
        rfl
      · rw [if_pos (show s.cq.queue = [] ∧ s.flag .cqReady = false ∧ s.cq.delay ≠ 0 from ⟨hq.1, hq.2, hd⟩),
          if_neg (show ¬ (s.updCq (fun q => { q with queue := q.queue ++ [n] })).cq.delay = 0 from hd)]
        rfl
    · rw [if_neg (by simpa [List.isEmpty_iff] using hq), if_neg (by tauto)]
      rfl

/-- An append touches the queue, its timer and CQ_READY alone. -/
theorem appendRecord_frame (s : State) (n : SlotId) :
    s.appendRecord n =
      { s with
        ev := { s.ev with flags := (s.appendRecord n).ev.flags }
        cq := { s.cq with queue := s.cq.queue ++ [n], timer := (s.appendRecord n).cq.timer } } := by
  rw [appendRecord_eq]
  split
  · rfl
  · split <;> rfl

@[simp] theorem appendRecord_slot (s : State) (n m : SlotId) : (s.appendRecord n).slot m = s.slot m := by
  rw [appendRecord_frame]; rfl
@[simp] theorem appendRecord_target (s : State) (n : SlotId) (k : TargetId) : (s.appendRecord n).target k = s.target k := by
  rw [appendRecord_frame]; rfl
@[simp] theorem appendRecord_queue (s : State) (n : SlotId) : (s.appendRecord n).cq.queue = s.cq.queue ++ [n] := by
  rw [appendRecord_frame]

theorem appendRecord_flag (s : State) (n : SlotId) (e : EventFlag) :
    (s.appendRecord n).flag e = (s.flag e || decide (e = .cqReady ∧ SignalsAtOnce s n)) := by
  rw [appendRecord_eq]
  have key : ∀ x : State, x.ev.flags = s.ev.flags ||| BitVec.twoPow 16 0 → x.flag e = (s.flag e || decide (e = .cqReady)) := by
    intro x hx
    have := flag_raise s .cqReady e
    simpa [State.flag, State.raise, hx, EventFlag.bit] using this
  by_cases h : SignalsAtOnce s n
  · rw [if_pos h, key _ rfl]; simp [h]
  · rw [if_neg h]
    split <;> simp [h] <;> rfl

/-! ### completeSlot -/

/-- The completion of slot n, said once (R39): everything it changes is in Completes, and the flags beside CQ_READY stay. -/
theorem completeSlot_completes (s : State) (n : SlotId) (st : Status) :
    Completes s (completeSlot n st s) n (s.slot n) (s.entryOf n) st ∧ RaisesBesideReady s (completeSlot n st s) [] ∧
      completeSlot n st s =
        { s with
          slots := (completeSlot n st s).slots, targets := (completeSlot n st s).targets, cq := (completeSlot n st s).cq
          ev := (completeSlot n st s).ev } := by
  obtain ⟨u, hu⟩ : ∃ u, u = (s.updSlot n (fun x => { x with
    state := .done, outcome := .completed st, completionTime := s.ev.timeBase })).updEntryOf n
      (fun e => { e with refCount := e.refCount - 1, lastFinal := some st }) := ⟨_, rfl⟩
  have hc : completeSlot n st s = u.appendRecord n := by rw [hu]; rfl
  have hidx : ∀ m, (s.updSlot n (fun x => { x with
      state := .done, outcome := .completed st, completionTime := s.ev.timeBase })).targetIndex m = s.targetIndex m := by
    intro m
    simp only [State.targetIndex, updSlot_slot]
    by_cases hm : m = n
    · subst hm; simp
    · simp [hm]
  have hslot : ∀ m, u.slot m = if m = n then
      { s.slot n with state := .done, outcome := .completed st, completionTime := s.ev.timeBase } else s.slot m := by
    intro m; rw [hu]; simp
  have htgt : ∀ k, u.target k = if s.targetIndex n = some k then
      { s.target k with refCount := (s.target k).refCount - 1, lastFinal := some st } else s.target k := by
    intro k; rw [hu, updEntryOf_target, hidx]; simp
  have hcq : u.cq = s.cq := by rw [hu]; simp
  have hev : u.ev = s.ev := by rw [hu]; simp
  have hflag : ∀ e, u.flag e = s.flag e := by intro e; simp [State.flag, hev]
  have hsig : SignalsAtOnce u n ↔ SignalsAtOnce s n := by simp [SignalsAtOnce, hslot, hcq]
  have hframe : u = { s with slots := u.slots, targets := u.targets } := by
    rw [hu, updEntryOf_frame]; rfl
  refine ⟨?_, ⟨?_, ?_⟩, ?_⟩
  · rw [hc]
    refine ⟨⟨?_, ?_, ?_, ?_, ?_⟩, ?_, ?_, ?_, ?_⟩
    · rw [appendRecord_frame, hcq]
    · rw [appendRecord_flag, hflag]; simp [hsig]
    · intro h; rw [appendRecord_eq, if_pos (hsig.mpr h)]
    · intro h hq hf hd
      rw [appendRecord_eq, if_neg (mt hsig.mp h), if_pos (by rw [hcq, hflag]; exact ⟨hq, hf, hd⟩), hcq]
    · intro h hk
      rw [appendRecord_eq, if_neg (mt hsig.mp h), if_neg (by
        rw [hcq, hflag]; rintro ⟨a, b, c⟩
        rcases hk with hk | hk | hk
        · exact hk a
        · simp [b] at hk
        · exact c hk), hcq]
    · simp [hslot]
    · intro m hm; simp [hslot, hm]
    · intro k hk; simp [htgt, hk, entryOf_eq hk]
    · intro k hk; simp [htgt, hk]
  · rw [hc, appendRecord_frame, hev]
  · intro e he; rw [hc, appendRecord_flag, hflag]; simp [he]
  · have h := appendRecord_frame u n
    have hu' : ∀ {α : Type} (f : State → α), f u = f { s with slots := u.slots, targets := u.targets } := fun f => congrArg f hframe
    rw [hc]
    refine state_ext ?_ rfl rfl rfl rfl ?_ ?_ ?_ ?_ ?_
    · exact (congrArg State.win h).trans (hu' State.win)
    · exact (congrArg State.segs h).trans (hu' State.segs)
    · exact (congrArg State.entries h).trans (hu' State.entries)
    · exact (congrArg State.boxes h).trans (hu' State.boxes)
    · exact (congrArg State.rstHeld h).trans (hu' State.rstHeld)
    · exact (congrArg State.pending h).trans (hu' State.pending)

@[simp] theorem completeSlot_segs (s : State) (n : SlotId) (st : Status) : (completeSlot n st s).segs = s.segs := by
  rw [(completeSlot_completes s n st).2.2]
@[simp] theorem completeSlot_boxes (s : State) (n : SlotId) (st : Status) : (completeSlot n st s).boxes = s.boxes := by
  rw [(completeSlot_completes s n st).2.2]
@[simp] theorem completeSlot_entries (s : State) (n : SlotId) (st : Status) : (completeSlot n st s).entries = s.entries := by
  rw [(completeSlot_completes s n st).2.2]
@[simp] theorem completeSlot_win (s : State) (n : SlotId) (st : Status) : (completeSlot n st s).win = s.win := by
  rw [(completeSlot_completes s n st).2.2]
@[simp] theorem completeSlot_rstHeld (s : State) (n : SlotId) (st : Status) : (completeSlot n st s).rstHeld = s.rstHeld := by
  rw [(completeSlot_completes s n st).2.2]
@[simp] theorem completeSlot_pending (s : State) (n : SlotId) (st : Status) : (completeSlot n st s).pending = s.pending := by
  rw [(completeSlot_completes s n st).2.2]
@[simp] theorem completeSlot_seg (s : State) (n : SlotId) (st : Status) (g : Seg) : (completeSlot n st s).seg g = s.seg g := by
  simp [State.seg]
@[simp] theorem completeSlot_engine (s : State) (n : SlotId) (st : Status) (g : Seg) :
    (completeSlot n st s).engine g = s.engine g := by simp [State.engine]
@[simp] theorem completeSlot_ctx (s : State) (n : SlotId) (st : Status) (g : Seg) : (completeSlot n st s).ctx g = s.ctx g := by
  simp [State.ctx]
@[simp] theorem completeSlot_box (s : State) (n : SlotId) (st : Status) (m : BoxId) : (completeSlot n st s).box m = s.box m := by
  simp [State.box]

/-- The slots after a completion. -/
theorem completeSlot_slot (s : State) (n : SlotId) (st : Status) (m : SlotId) :
    (completeSlot n st s).slot m =
      if m = n then { s.slot n with state := .done, outcome := .completed st, completionTime := s.ev.timeBase } else s.slot m := by
  have h := (completeSlot_completes s n st).1
  by_cases hm : m = n
  · subst hm; simp [h.slot]
  · simp [hm, h.slots m hm]

/-- The queue after a completion. -/
theorem completeSlot_queue (s : State) (n : SlotId) (st : Status) : (completeSlot n st s).cq.queue = s.cq.queue ++ [n] := by
  rw [(completeSlot_completes s n st).1.queue]

/-- The entries after a completion. -/
theorem completeSlot_target (s : State) (n : SlotId) (st : Status) (k : TargetId) :
    (completeSlot n st s).target k = if s.targetIndex n = some k then
      { s.target k with refCount := (s.target k).refCount - 1, lastFinal := some st } else s.target k := by
  have h := (completeSlot_completes s n st).1
  split
  · rename_i hk; rw [h.entry k hk, entryOf_eq hk]
  · rename_i hk; exact h.entries k hk

/-! ### Bookkeeping of Completes -/

/-- An append said of a state u is one of s, when s has the same queue, CQ_READY and notify-now. -/
theorem appends_transfer {s u t : State} {n : SlotId} (h : Appends u t n) (hnotify : (u.slot n).notifyNow = (s.slot n).notifyNow)
    (hcq : u.cq = s.cq) (hflag : u.flag .cqReady = s.flag .cqReady) : Appends s t n := by
  have hsig : SignalsAtOnce u n ↔ SignalsAtOnce s n := by simp [SignalsAtOnce, hnotify, hcq]
  refine ⟨by rw [h.queue, hcq], by rw [h.ready, hflag, hsig], fun hs => h.signalled (hsig.mpr hs), ?_, ?_⟩
  · intro hs hq hf hd
    rw [h.started (mt hsig.mp hs) (by rw [hcq, hq]) (by rw [hflag, hf]) (by rw [hcq]; exact hd), hcq]
  · intro hs hk
    rw [h.kept (mt hsig.mp hs) (by rw [hcq, hflag]; exact hk), hcq]

/-- An append holds of every state that agrees with t on the queue and CQ_READY. -/
theorem appends_congr {s t t' : State} {n : SlotId} (h : Appends s t n) (hcq : t'.cq = t.cq)
    (hflag : t'.flag .cqReady = t.flag .cqReady) : Appends s t' n :=
  ⟨by rw [hcq, h.queue], by rw [hflag, h.ready], fun a => by rw [hcq, h.signalled a],
    fun a b c d => by rw [hcq, h.started a b c d], fun a b => by rw [hcq, h.kept a b]⟩

/-- Nothing is appended. -/
theorem appendsAll_nil (s : State) : AppendsAll s s [] :=
  ⟨by simp, by simp, fun h => absurd rfl h.1, fun _ h => absurd rfl h, fun _ _ => rfl⟩

/-- One record and then the others. -/
theorem appendsAll_cons {s u t : State} {n : SlotId} {ns : List SlotId} (h : Appends s u n) (hs : AppendsAll u t ns)
    (hnotify : ∀ m ∈ ns, (u.slot m).notifyNow = (s.slot m).notifyNow) : AppendsAll s t (n :: ns) := by
  have hthr : u.cq.threshold = s.cq.threshold := by rw [h.queue]
  have hdel : u.cq.delay = s.cq.delay := by rw [h.queue]
  have hq : u.cq.queue = s.cq.queue ++ [n] := by rw [h.queue]
  have hsome : SomeSignals s (n :: ns) ↔ SignalsAtOnce s n ∨ SomeSignals u ns := by
    have hex : (∃ m ∈ ns, (u.slot m).notifyNow = true) ↔ ∃ m ∈ ns, (s.slot m).notifyNow = true :=
      exists_congr fun m => and_congr_right fun hm => by rw [hnotify m hm]
    simp only [SomeSignals, SignalsAtOnce, hex, hthr, hq, List.length_append, List.length_cons, List.length_nil, List.mem_cons,
      exists_eq_or_imp, ne_eq, reduceCtorEq, not_false_eq_true, true_and]
    cases ns with
    | nil => simp
    | cons m ms =>
      simp only [reduceCtorEq, not_false_eq_true, true_and, List.length_cons]
      constructor
      · rintro ((h1 | h1) | h1)
        · exact .inl (.inl h1)
        · exact .inr (.inl h1)
        · exact .inr (.inr (by omega))
      · rintro ((h1 | h1) | h1 | h1)
        · exact .inl (.inl h1)
        · exact .inr (by omega)
        · exact .inl (.inr h1)
        · exact .inr (by omega)
  refine ⟨by rw [hs.queue, h.queue, List.append_assoc]; rfl, by rw [hs.ready, h.ready, hsome, or_assoc], ?_, ?_, ?_⟩
  · intro hsig
    by_cases h2 : SomeSignals u ns
    · exact hs.signalled h2
    · rw [hs.kept h2 (.inr (.inl (by rw [hq]; simp)))]
      exact h.signalled ((hsome.mp hsig).resolve_right h2)
  · intro hsig _ h1 h2 h3
    obtain ⟨ha, hb⟩ := not_or.mp (mt hsome.mpr hsig)
    rw [hs.kept hb (.inr (.inl (by rw [hq]; simp))), h.started ha h1 h2 h3]
  · intro hsig hk
    obtain ⟨ha, hb⟩ := not_or.mp (mt hsome.mpr hsig)
    rw [hs.kept hb (.inr (.inl (by rw [hq]; simp))), h.kept ha (hk.resolve_left (by simp))]

/-- The records that a row of completions appends. -/
theorem foldl_completeSlot_appendsAll (st : Status) (ns : List SlotId) (s : State) :
    AppendsAll s (ns.foldl (fun t n => completeSlot n st t) s) ns := by
  induction ns generalizing s with
  | nil => exact appendsAll_nil s
  | cons n ns ih =>
    refine appendsAll_cons (completeSlot_completes s n st).1.toAppends (ih _) fun m _ => ?_
    rw [completeSlot_slot]
    split
    · rename_i h; subst h; rfl
    · rfl

/-- Appends hold between every two states that agree with s and t on the queue, CQ_READY and the slots. -/
theorem appendsAll_congr {s s' t t' : State} {ns : List SlotId} (h : AppendsAll s t ns) (hslots : s'.slots = s.slots) (hcq : s'.cq = s.cq)
    (hflag : s'.flag .cqReady = s.flag .cqReady) (hcq' : t'.cq = t.cq) (hflag' : t'.flag .cqReady = t.flag .cqReady) :
    AppendsAll s' t' ns := by
  have hsome : SomeSignals s' ns ↔ SomeSignals s ns := by simp [SomeSignals, State.slot, hslots, hcq]
  exact ⟨by rw [hcq', hcq, h.queue], by rw [hflag', hflag, h.ready, hsome], fun a => by rw [hcq', h.signalled (hsome.mp a)],
    fun a b c d e => by
      rw [hcq', h.started (mt hsome.mpr a) b (by rw [← hcq]; exact c) (by rw [← hflag]; exact d) (by rw [← hcq]; exact e), hcq],
    fun a b => by rw [hcq', h.kept (mt hsome.mpr a) (by rw [← hcq, ← hflag]; exact b), hcq]⟩

/-- A completion said of a state u is one of s, when u differs from s by no more than slot n, its entry and what a completion does not
read. -/
theorem completes_transfer {s u t : State} {n : SlotId} {x : Slot} {e : TargetEntry} {st : Status} (h : Completes u t n x e st)
    (hslots : ∀ m, m ≠ n → u.slot m = s.slot m) (hnotify : (u.slot n).notifyNow = (s.slot n).notifyNow)
    (hidx : u.targetIndex n = s.targetIndex n) (hent : ∀ k, s.targetIndex n ≠ some k → u.target k = s.target k)
    (hcq : u.cq = s.cq) (hflag : u.flag .cqReady = s.flag .cqReady) (htime : u.ev.timeBase = s.ev.timeBase) :
    Completes s t n x e st :=
  ⟨appends_transfer h.toAppends hnotify hcq hflag, by rw [h.slot, htime], fun m hm => by rw [h.slots m hm, hslots m hm],
    fun k hk => h.entry k (by rw [hidx, hk]), fun k hk => by rw [h.entries k (by rwa [hidx]), hent k hk]⟩

/-- A completion holds of every state that agrees with t on slots, entries, queue and CQ_READY. -/
theorem completes_congr {s t t' : State} {n : SlotId} {x : Slot} {e : TargetEntry} {st : Status} (h : Completes s t n x e st)
    (hslots : t'.slots = t.slots) (htargets : t'.targets = t.targets) (hcq : t'.cq = t.cq)
    (hflag : t'.flag .cqReady = t.flag .cqReady) : Completes s t' n x e st := by
  have hs : ∀ m, t'.slot m = t.slot m := fun m => by simp [State.slot, hslots]
  have ht : ∀ k, t'.target k = t.target k := fun k => by simp [State.target, htargets]
  exact ⟨appends_congr h.toAppends hcq hflag, by rw [hs, h.slot], fun m hm => by rw [hs, h.slots m hm],
    fun k hk => by rw [ht, h.entry k hk], fun k hk => by rw [ht, h.entries k hk]⟩

end Sys2Proof.Machine
end

