-- ==== Sys2Proof/Laws/Work.lean ====
section
/-! SUPPORT. What the shared operations of Machine/Work.lean do, each said once in the words of Claims.lean: ending slots and contexts, the
departures of a segment, the begin and the evaluation of an attempt. -/

namespace Sys2Proof.Machine

open Sys2Proof.Claims

/-! ### Bookkeeping -/

/-- Only segment g changes under an update of it. -/
theorem onlySegment_updSeg (s : State) (g : Seg) (f : Segment → Segment) : OnlySegment s (s.updSeg g f) g (f (s.seg g)) :=
  ⟨by simp, fun h hh => by simp [hh]⟩

/-- Two changes of one segment are one. -/
theorem onlySegment_trans {s t u : State} {g : Seg} {x y : Segment} (h : OnlySegment s t g x) (k : OnlySegment t u g y) :
    OnlySegment s u g y :=
  ⟨k.1, fun j hj => by rw [k.2 j hj, h.2 j hj]⟩

/-- Only segment g changes, of states with equal segments. -/
theorem onlySegment_congr {s s' t t' : State} {g : Seg} {x : Segment} (h : OnlySegment s t g x) (hs : s'.segs = s.segs)
    (ht : t'.segs = t.segs) : OnlySegment s' t' g x := by
  refine ⟨?_, fun j hj => ?_⟩
  · rw [← h.1]; exact congrArg (fun v => v[g]) ht
  · have := h.2 j hj
    calc t'.seg j = t.seg j := congrArg (fun v => v[j]) ht
      _ = s.seg j := this
      _ = s'.seg j := (congrArg (fun v => v[j]) hs).symm

/-- Flags raised one list after another. -/
theorem raises_refl (s : State) : Raises s s [] := ⟨rfl, by simp⟩

theorem raises_raise (s : State) (e : EventFlag) : Raises s (s.raise e) [e] := ⟨rfl, by simp⟩

theorem raises_congr {s s' t t' : State} {fs : List EventFlag} (h : Raises s t fs) (hs : s'.ev = s.ev) (ht : t'.ev = t.ev) :
    Raises s' t' fs := by
  refine ⟨by rw [ht, hs]; exact h.1, fun e => ?_⟩
  have := h.2 e
  simpa [State.flag, hs, ht] using this

/-! ### Ending the active slot -/

@[simp] theorem idleEngine_eq (g : Seg) (s : State) : idleEngine g s = s.updEngine g (fun _ => {}) := rfl

/-- finishSlot completes the slot and leaves the engine IDLE (R76). -/
theorem finishSlot_spec (g : Seg) (n : SlotId) (st : Status) (s : State) :
    Completes s (finishSlot g n st s) n (s.slot n) (s.entryOf n) st ∧ RaisesBesideReady s (finishSlot g n st s) [] ∧
      OnlySegment s (finishSlot g n st s) g { s.seg g with engine := {} } ∧
      finishSlot g n st s =
        { s with
          slots := (finishSlot g n st s).slots, targets := (finishSlot g n st s).targets, cq := (finishSlot g n st s).cq
          ev := (finishSlot g n st s).ev, segs := (finishSlot g n st s).segs } := by
  obtain ⟨hc, hr, hf⟩ := completeSlot_completes s n st
  refine ⟨completes_congr hc rfl rfl rfl rfl, hr, ?_, ?_⟩
  · refine ⟨by simp [finishSlot], fun h hh => by simp [finishSlot, hh]⟩
  · refine state_ext ?_ rfl rfl rfl rfl rfl ?_ ?_ ?_ ?_ <;> simp [finishSlot]

/-- completeActive completes the active slot of g, where there is one (R87 to R89). -/
theorem completeActive_spec (g : Seg) (st : Status) (s : State) :
    EndsActive s (completeActive g st s) g st ∧ RaisesBesideReady s (completeActive g st s) [] ∧
      completeActive g st s =
        { s with
          slots := (completeActive g st s).slots, targets := (completeActive g st s).targets, cq := (completeActive g st s).cq
          ev := (completeActive g st s).ev } := by
  unfold completeActive EndsActive
  cases (s.engine g).active with
  | none => exact ⟨⟨rfl, rfl, rfl, rfl⟩, ⟨rfl, by simp⟩, rfl⟩
  | some n => exact completeSlot_completes s n st

@[simp] theorem completeActive_segs (g : Seg) (st : Status) (s : State) : (completeActive g st s).segs = s.segs := by
  rw [(completeActive_spec g st s).2.2]
@[simp] theorem completeActive_boxes (g : Seg) (st : Status) (s : State) : (completeActive g st s).boxes = s.boxes := by
  rw [(completeActive_spec g st s).2.2]
@[simp] theorem completeActive_win (g : Seg) (st : Status) (s : State) : (completeActive g st s).win = s.win := by
  rw [(completeActive_spec g st s).2.2]
@[simp] theorem completeActive_entries (g : Seg) (st : Status) (s : State) : (completeActive g st s).entries = s.entries := by
  rw [(completeActive_spec g st s).2.2]
@[simp] theorem completeActive_rstHeld (g : Seg) (st : Status) (s : State) : (completeActive g st s).rstHeld = s.rstHeld := by
  rw [(completeActive_spec g st s).2.2]
@[simp] theorem completeActive_pending (g : Seg) (st : Status) (s : State) : (completeActive g st s).pending = s.pending := by
  rw [(completeActive_spec g st s).2.2]
@[simp] theorem completeActive_seg (g h : Seg) (st : Status) (s : State) : (completeActive g st s).seg h = s.seg h := by
  simp [State.seg]
@[simp] theorem completeActive_engine (g h : Seg) (st : Status) (s : State) : (completeActive g st s).engine h = s.engine h := by
  simp [State.engine]
@[simp] theorem completeActive_ctx (g h : Seg) (st : Status) (s : State) : (completeActive g st s).ctx h = s.ctx h := by
  simp [State.ctx]
@[simp] theorem completeActive_box (g : Seg) (st : Status) (s : State) (m : BoxId) : (completeActive g st s).box m = s.box m := by
  simp [State.box]

theorem completeActive_flag (g : Seg) (st : Status) (s : State) (e : EventFlag) (h : e ≠ .cqReady) :
    (completeActive g st s).flag e = s.flag e := by
  have := (completeActive_spec g st s).2.1.2 e h
  rw [Bool.eq_iff_iff, this]; simp

/-- EndsActive reads the work, CQ_READY and the active slot alone. -/
theorem endsActive_congr {s s' t t' : State} {g : Seg} {st : Status} (h : EndsActive s t g st)
    (hact : (s'.engine g).active = (s.engine g).active) (hslots : s'.slots = s.slots) (htargets : s'.targets = s.targets)
    (hcq : s'.cq = s.cq) (hev : s'.ev = s.ev) (tslots : t'.slots = t.slots) (ttargets : t'.targets = t.targets) (tcq : t'.cq = t.cq)
    (tflag : t'.flag .cqReady = t.flag .cqReady) : EndsActive s' t' g st := by
  have hs : ∀ m, s'.slot m = s.slot m := fun m => by simp [State.slot, hslots]
  have ht : ∀ k, s'.target k = s.target k := fun k => by simp [State.target, htargets]
  have hf : s'.flag .cqReady = s.flag .cqReady := by simp [State.flag, hev]
  unfold EndsActive at h ⊢
  rw [hact]
  cases ha : (s.engine g).active with
  | none =>
    rw [ha] at h
    exact ⟨by rw [tslots, h.1, hslots], by rw [ttargets, h.2.1, htargets], by rw [tcq, h.2.2.1, hcq], by rw [tflag, h.2.2.2, hf]⟩
  | some n =>
    rw [ha] at h
    have hi : s'.targetIndex n = s.targetIndex n := by simp [State.targetIndex, hs]
    have he : s'.entryOf n = s.entryOf n := by
      simp only [State.entryOf, hi]; cases s.targetIndex n <;> simp [ht]
    have := completes_transfer (s := s') (completes_congr h tslots ttargets tcq tflag) (fun m _ => (hs m).symm) (by rw [hs]) hi.symm
      (fun k _ => (ht k).symm) hcq.symm hf.symm (by rw [hev])
    simpa [hs, he] using this

/-! ### Receive contexts -/

/-- endPhase ends the phase of the context as its rule states, and touches the mailboxes and the flags alone (R157, R160, R162). -/
theorem endPhase_spec (g : Seg) (s : State) :
    EndsTransfer s (endPhase g s) g ∧ endPhase g s = { s with boxes := (endPhase g s).boxes, ev := (endPhase g s).ev } := by
  cases hp : (s.ctx g).phase with
  | writing =>
    by_cases hl : 1 ≤ (s.box (s.ctx g).mailbox).inLength
    · have h : endPhase g s = (s.updBox (s.ctx g).mailbox (fun b => { b with inState := .full })).raise .mbInbound := by
        simp [endPhase, hp, endRemoteWrite, hl]
      rw [h]
      refine ⟨⟨fun _ _ => ⟨by simp, raises_congr (raises_raise s .mbInbound) rfl rfl⟩, fun _ h0 => by omega, fun h1 => by simp [hp] at h1,
        fun h1 => by simp [hp] at h1, fun m hm => by simp [hm], fun h1 => absurd hp h1⟩, rfl⟩
    · have h : endPhase g s = s.updBox (s.ctx g).mailbox (fun b => { b with inState := .empty }) := by
        simp [endPhase, hp, endRemoteWrite, hl]
      rw [h]
      refine ⟨⟨fun _ h1 => absurd h1 hl, fun _ _ => ⟨by simp, rfl⟩, fun h1 => by simp [hp] at h1, fun h1 => by simp [hp] at h1,
        fun m hm => by simp [hm], fun h1 => absurd hp h1⟩, rfl⟩
  | reading =>
    cases hf : (s.ctx g).fill with
    | true =>
      have h : endPhase g s = s.updBox (s.ctx g).mailbox (fun b => { b with lastRead := 0 }) := by
        simp [endPhase, hp, hf, endFillRead]
      rw [h]
      refine ⟨⟨fun h1 => by simp [hp] at h1, fun h1 => by simp [hp] at h1, fun _ h1 => by simp [hf] at h1, fun _ _ => ⟨by simp, rfl⟩,
        fun m hm => by simp [hm], fun _ h1 => absurd hp h1⟩, rfl⟩
    | false =>
      have h : endPhase g s = s.updBox (s.ctx g).mailbox (fun b => { b with
          outState := .empty, outLength := 0, lastRead := (s.ctx g).count }) := by
        simp [endPhase, hp, hf, endRemoteRead]
      rw [h]
      refine ⟨⟨fun h1 => by simp [hp] at h1, fun h1 => by simp [hp] at h1, fun _ _ => ⟨by simp, rfl⟩, fun _ h1 => by simp [hf] at h1,
        fun m hm => by simp [hm], fun _ h1 => absurd hp h1⟩, rfl⟩
  | listen | address | unaddressed | holding =>
    all_goals
      have h : endPhase g s = s := by simp [endPhase, hp]
      rw [h]
      exact ⟨⟨fun h1 => by simp [hp] at h1, fun h1 => by simp [hp] at h1, fun h1 => by simp [hp] at h1, fun h1 => by simp [hp] at h1,
        fun _ _ => rfl, fun _ _ => ⟨rfl, rfl⟩⟩, rfl⟩

@[simp] theorem endPhase_win (g : Seg) (s : State) : (endPhase g s).win = s.win := by rw [(endPhase_spec g s).2]
@[simp] theorem endPhase_cq (g : Seg) (s : State) : (endPhase g s).cq = s.cq := by rw [(endPhase_spec g s).2]
@[simp] theorem endPhase_slots (g : Seg) (s : State) : (endPhase g s).slots = s.slots := by rw [(endPhase_spec g s).2]
@[simp] theorem endPhase_targets (g : Seg) (s : State) : (endPhase g s).targets = s.targets := by rw [(endPhase_spec g s).2]
@[simp] theorem endPhase_segs (g : Seg) (s : State) : (endPhase g s).segs = s.segs := by rw [(endPhase_spec g s).2]
@[simp] theorem endPhase_entries (g : Seg) (s : State) : (endPhase g s).entries = s.entries := by rw [(endPhase_spec g s).2]
@[simp] theorem endPhase_rstHeld (g : Seg) (s : State) : (endPhase g s).rstHeld = s.rstHeld := by rw [(endPhase_spec g s).2]
@[simp] theorem endPhase_pending (g : Seg) (s : State) : (endPhase g s).pending = s.pending := by rw [(endPhase_spec g s).2]
@[simp] theorem endPhase_seg (g h : Seg) (s : State) : (endPhase g s).seg h = s.seg h := by simp [State.seg]
@[simp] theorem endPhase_slot (g : Seg) (s : State) (n : SlotId) : (endPhase g s).slot n = s.slot n := by simp [State.slot]
@[simp] theorem endPhase_target (g : Seg) (s : State) (k : TargetId) : (endPhase g s).target k = s.target k := by simp [State.target]

/-- A phase that serves no mailbox ends without a change. -/
theorem endPhase_idle (g : Seg) (s : State) (h : (s.ctx g).phase ≠ .writing) (h' : (s.ctx g).phase ≠ .reading) : endPhase g s = s := by
  have := (endPhase_spec g s).1.none h h'
  rw [(endPhase_spec g s).2, this.1, this.2]

/-- EndsTransfer reads the context, the mailboxes and the flags alone. -/
theorem endsTransfer_congr {s s' t t' : State} {g : Seg} (h : EndsTransfer s t g) (hctx : s'.ctx g = s.ctx g)
    (hbox : s'.boxes = s.boxes) (hev : s'.ev = s.ev) (tbox : t'.boxes = t.boxes) (tev : t'.ev = t.ev) : EndsTransfer s' t' g := by
  have hb : ∀ m, s'.box m = s.box m := fun m => by simp [State.box, hbox]
  have tb : ∀ m, t'.box m = t.box m := fun m => by simp [State.box, tbox]
  have hr : ∀ fs, Raises s t fs → Raises s' t' fs := fun fs h => raises_congr h hev tev
  refine ⟨?_, ?_, ?_, ?_, ?_, ?_⟩ <;> simp only [hctx, hb, tb, hbox, tbox, hev, tev]
  · exact fun a b => ⟨(h.written a b).1, hr _ (h.written a b).2⟩
  · exact h.unwritten
  · exact h.read
  · exact h.filled
  · exact h.boxes
  · exact h.none

/-- endContext cuts the context off, and leaves it in LISTEN (R167). -/
theorem endContext_spec (g : Seg) (s : State) :
    EndsContext s (endContext g s) g ∧ OnlySegment s (endContext g s) g { s.seg g with ctx := { phase := .listen } } ∧
      ((endContext g s).ev = { s.ev with flags := (endContext g s).ev.flags } ∧
        ∀ e : EventFlag, e ≠ .inboundLost → (endContext g s).flag e = s.flag e) ∧
      endContext g s =
        { s with boxes := (endContext g s).boxes, ev := (endContext g s).ev, segs := (endContext g s).segs } := by
  cases hp : (s.ctx g).phase with
  | writing =>
    have h : endContext g s = ((s.updBox (s.ctx g).mailbox (fun b => { b with inState := .empty, inLength := 0 })).raise
        .inboundLost).updCtx g (fun _ => { phase := .listen }) := by
      simp [endContext, hp, RxContext.inPhase]
    rw [h]
    refine ⟨⟨fun _ => ⟨by simp, fun m hm => by simp [hm]⟩, fun h1 => by simp [hp] at h1, fun h1 => absurd hp h1, by simp [hp]⟩, ?_,
      ⟨rfl, fun e he => by simp [he]⟩, rfl⟩
    exact ⟨by simp, fun j hj => by simp [hj]⟩
  | reading =>
    cases hf : (s.ctx g).fill with
    | true =>
      have h : endContext g s = s.updCtx g (fun _ => { phase := .listen }) := by simp [endContext, hp, hf, RxContext.inPhase]
      rw [h]
      exact ⟨⟨fun h1 => by simp [hp] at h1, fun _ h1 => by simp [hf] at h1, fun _ _ => rfl, by simp [hp]⟩,
        ⟨by simp, fun j hj => by simp [hj]⟩, ⟨rfl, fun _ _ => rfl⟩, rfl⟩
    | false =>
      have h : endContext g s = (s.updBox (s.ctx g).mailbox (fun b => { b with outState := .loaded })).updCtx g
          (fun _ => { phase := .listen }) := by simp [endContext, hp, hf, RxContext.inPhase]
      rw [h]
      exact ⟨⟨fun h1 => by simp [hp] at h1, fun _ _ => ⟨by simp, fun m hm => by simp [hm]⟩, fun _ h1 => absurd ⟨hp, hf⟩ h1,
        by simp [hp]⟩, ⟨by simp, fun j hj => by simp [hj]⟩, ⟨rfl, fun _ _ => rfl⟩, rfl⟩
  | listen | address | unaddressed | holding =>
    all_goals
      have h : endContext g s = s.updCtx g (fun _ => { phase := .listen }) := by simp [endContext, hp, RxContext.inPhase]
      rw [h]
      exact ⟨⟨fun h1 => by simp [hp] at h1, fun h1 => by simp [hp] at h1, fun _ _ => rfl, by simp [hp]⟩,
        ⟨by simp, fun j hj => by simp [hj]⟩, ⟨rfl, fun _ _ => rfl⟩, rfl⟩

@[simp] theorem endContext_win (g : Seg) (s : State) : (endContext g s).win = s.win := by rw [(endContext_spec g s).2.2.2]
@[simp] theorem endContext_cq (g : Seg) (s : State) : (endContext g s).cq = s.cq := by rw [(endContext_spec g s).2.2.2]
@[simp] theorem endContext_slots (g : Seg) (s : State) : (endContext g s).slots = s.slots := by rw [(endContext_spec g s).2.2.2]
@[simp] theorem endContext_targets (g : Seg) (s : State) : (endContext g s).targets = s.targets := by rw [(endContext_spec g s).2.2.2]
@[simp] theorem endContext_entries (g : Seg) (s : State) : (endContext g s).entries = s.entries := by rw [(endContext_spec g s).2.2.2]
@[simp] theorem endContext_rstHeld (g : Seg) (s : State) : (endContext g s).rstHeld = s.rstHeld := by rw [(endContext_spec g s).2.2.2]
@[simp] theorem endContext_pending (g : Seg) (s : State) : (endContext g s).pending = s.pending := by rw [(endContext_spec g s).2.2.2]

theorem endContext_seg (g h : Seg) (s : State) :
    (endContext g s).seg h = if h = g then { s.seg g with ctx := { phase := .listen } } else s.seg h := by
  have := (endContext_spec g s).2.1
  by_cases hg : h = g
  · subst hg; simp [this.1]
  · simp [hg, this.2 h hg]

/-- EndsContext reads the context, the mailboxes and INBOUND_LOST alone. -/
theorem endsContext_congr {s s' t t' : State} {g : Seg} (h : EndsContext s t g) (hctx : s'.ctx g = s.ctx g)
    (hbox : s'.boxes = s.boxes) (hflag : s'.flag .inboundLost = s.flag .inboundLost) (tbox : t'.boxes = t.boxes)
    (tflag : t'.flag .inboundLost = t.flag .inboundLost) : EndsContext s' t' g := by
  have hb : ∀ m, s'.box m = s.box m := fun m => by simp [State.box, hbox]
  have tb : ∀ m, t'.box m = t.box m := fun m => by simp [State.box, tbox]
  refine ⟨?_, ?_, ?_, ?_⟩ <;> simp only [hctx, hb, tb, hbox, tbox, hflag, tflag]
  · exact h.writing
  · exact h.reading
  · exact h.other
  · exact h.lost

/-! ### Departures -/

/-- depart is a departure in the sense of R129: the active slot ended, the context cut off, the lines released, the state entered. -/
theorem depart_spec (g : Seg) (dest : SegState) (dm : DownMode) (st : Status) (s : State) :
    Departs s (depart g dest dm st s) g (outOfService (s.seg g) dest dm) st [.segChange g] ∧
      depart g dest dm st s =
        { s with
          ev := (depart g dest dm st s).ev, cq := (depart g dest dm st s).cq, slots := (depart g dest dm st s).slots
          targets := (depart g dest dm st s).targets, segs := (depart g dest dm st s).segs, boxes := (depart g dest dm st s).boxes } := by
  obtain ⟨a, ha⟩ : ∃ a, a = releaseLines g s := ⟨_, rfl⟩
  obtain ⟨b, hb⟩ : ∃ b, b = enterState g dest dm (idleEngine g (completeActive g st a)) := ⟨_, rfl⟩
  have hd : depart g dest dm st s = endContext g b := by rw [hb, ha]; rfl
  have hact := completeActive_spec g st a
  have hctx := endContext_spec g b
  have hbseg : ∀ j, b.seg j = if j = g then { s.seg g with
      state := dest, downMode := dm, gate := .released, known := false, engine := {} } else s.seg j := by
    intro j; rw [hb, ha]; by_cases hj : j = g <;> simp [enterState, releaseLines, hj]
  have hbctx : b.ctx g = s.ctx g := by simp [State.ctx, hbseg]
  have hbflag : ∀ e, b.flag e = ((completeActive g st a).flag e || decide (e = .segChange g)) := by
    intro e; rw [hb]; simp [enterState]
  have haflag : ∀ e, a.flag e = s.flag e := by intro e; rw [ha]; rfl
  have haev : a.ev = s.ev := by rw [ha]; rfl
  rw [hd]
  refine ⟨⟨?_, ?_, ⟨?_, ?_⟩, ?_⟩, ?_⟩
  · refine endsActive_congr hact.1 ?_ ?_ ?_ ?_ ?_ ?_ ?_ ?_ ?_
    · rw [ha]; simp [releaseLines, State.engine]
    · rw [ha]; rfl
    · rw [ha]; rfl
    · rw [ha]; rfl
    · rw [ha]; rfl
    · rw [endContext_slots, hb]; rfl
    · rw [endContext_targets, hb]; rfl
    · rw [endContext_cq, hb]; rfl
    · rw [hctx.2.2.1.2 _ (by simp), hbflag]; simp
  · refine endsContext_congr hctx.1 hbctx.symm ?_ ?_ rfl rfl
    · rw [hb, ha]; simp [enterState, releaseLines]
    · rw [hbflag, completeActive_flag g st a .inboundLost (by simp), haflag]; simp
  · rw [hctx.2.2.1.1]
    have : b.ev = { s.ev with flags := b.ev.flags } := by
      have h1 : (completeActive g st a).ev = { s.ev with flags := (completeActive g st a).ev.flags } := by
        rw [← haev]; exact hact.2.1.1
      rw [hb]
      show ({ (completeActive g st a).ev with flags := _ } : EventUnit) = _
      rw [h1]; rfl
    rw [this]
  · intro e h1 h2
    rw [hctx.2.2.1.2 e h2, hbflag]
    rw [completeActive_flag g st a e h1, haflag]
    simp
  · refine ⟨?_, fun j hj => ?_⟩
    · rw [hctx.2.1.1, hbseg]; simp [outOfService]
    · rw [hctx.2.1.2 j hj, hbseg]; simp [hj]
  · refine state_ext ?_ rfl rfl rfl rfl rfl ?_ rfl ?_ ?_ <;> rw [hctx.2.2.2, hb, ha] <;> simp [enterState, releaseLines]

end Sys2Proof.Machine
end

