-- ==== Sys2Proof/Laws/Attempts.lean ====
section
/-! SUPPORT. What the begin of an attempt, the engine's way into RECOVERY and the failure evaluation do, each said once in the words of
Claims.lean (chapters 4 and 5). -/

namespace Sys2Proof.Machine

open Sys2Proof.Claims

/-! ### Reading conditions -/

theorem holdsBus_iff (e : Engine) : e.holdsBus = true ↔ HoldsBus e := by
  cases h : e.state <;> simp [Engine.holdsBus, HoldsBus, h]

theorem clockHeld_iff (e : Engine) : e.clockHeld = true ↔ ClockHeld e := by
  cases h : e.state <;> simp [Engine.clockHeld, ClockHeld, h]

theorem busStuck_iff (x : Segment) (held : Nat) : x.busStuck held = true ↔ Stuck x held := by
  rw [show x.busStuck held = (!x.known && !x.sdaHigh && decide (2000 ≤ held)) from rfl]
  simp [Stuck, and_assoc]

theorem busFreeInterval_eq (sp : Speed) : busFreeInterval sp = freeInterval sp := by
  cases sp <;> rfl

theorem busFree_iff (x : Segment) (sp : Speed) (held : Nat) : x.busFree sp held = true ↔ Free x sp held := by
  simp [Segment.busFree, Free, busFreeInterval_eq, and_assoc]

/-- At the moment of the row STUCK_DETECTED the levels alone decide. -/
theorem busStuck_now (x : Segment) : x.busStuck Config.stuckDetectTime = true ↔ LinesStuck x := by
  simp [Segment.busStuck, LinesStuck]

/-- At the moment of the row ENGINE_START the levels alone decide. -/
theorem busFree_now (x : Segment) (sp : Speed) : x.busFree sp (busFreeInterval sp) = true ↔ LinesFree x := by
  simp [Segment.busFree, LinesFree, and_assoc]

theorem busBusy_iff (x : Segment) : x.busBusy = true ↔ x.known = true ∨ x.sclHigh = false := by
  simp [Segment.busBusy]

/-- A bit sampled low changes the levels of its segment alone. -/
theorem sampleLow_eq (g : Seg) (s : State) : sampleLow g s = s.updSeg g dataLow := rfl

theorem status_eq_some (x : Slot) (st : Status) : x.mark.status = some st ↔ HasMark x st := by
  cases h : x.mark <;> simp [HasMark, Mark.status, h, eq_comm]

theorem status_eq_none (x : Slot) : x.mark.status = none ↔ x.mark = .none := by
  cases h : x.mark <;> simp [Mark.status]

theorem sending_eq (s : State) (g : Seg) (n : SlotId) (pos : BytePos) :
    (s.engine g).sending = some (n, pos) ↔ Sending s g n pos := by
  unfold Engine.sending Sending
  split
  · rename_i h; simp [h]
  · rename_i h; simp; tauto

/-! ### Recovery -/

/-- enterRecovery leaves the segment RECOVERING with its engine in RECOVERY, and ends the receive context (R69, R75, R83, R137, R167). -/
theorem enterRecovery_spec (g : Seg) (s : State) :
    KeepsWork s (enterRecovery g s) ∧ EndsContext s (enterRecovery g s) g ∧
      OnlySegment s (enterRecovery g s) g (recovering (s.seg g) (s.engine g)) ∧
      (∀ e : EventFlag, e ≠ .inboundLost → ((enterRecovery g s).flag e = true ↔ s.flag e = true ∨ e = .segChange g)) ∧
      enterRecovery g s =
        { s with
          ev := { s.ev with flags := (enterRecovery g s).ev.flags }, segs := (enterRecovery g s).segs
          boxes := (enterRecovery g s).boxes } := by
  obtain ⟨b, hb⟩ : ∃ b, b = enterState g .recovering .none (s.updSeg g (fun x => { x with
    known := false, sdaHigh := false
    engine := { x.engine with
      state := .recovery, met := none, closing := .none, nackOut := false, pulses := 0, recoveryStop := false
      busyTimer := none, stretchTimer := none, releaseTimer := none } })) := ⟨_, rfl⟩
  have hd : enterRecovery g s = endContext g b := by rw [hb]; rfl
  have hc := endContext_spec g b
  have hflag : ∀ e, b.flag e = (s.flag e || decide (e = .segChange g)) := by intro e; rw [hb]; simp [enterState]
  have hev : b.ev = { s.ev with flags := b.ev.flags } := by rw [hb]; rfl
  rw [hd]
  refine ⟨⟨?_, ?_, ?_, ?_⟩, ?_, ⟨?_, ?_⟩, ?_, ?_⟩
  · rw [endContext_slots, hb]; rfl
  · rw [endContext_targets, hb]; rfl
  · rw [endContext_cq, hb]; rfl
  · rw [hc.2.2.1.2 _ (by simp), hflag]; simp
  · refine endsContext_congr hc.1 ?_ ?_ ?_ rfl rfl
    · rw [hb]; simp [enterState, State.ctx]
    · rw [hb]; rfl
    · rw [hflag]; simp
  · rw [hc.2.1.1, hb]; simp [enterState, recovering, State.engine]
  · intro j hj; rw [hc.2.1.2 j hj, hb]; simp [enterState, hj]
  · intro e he; rw [hc.2.2.1.2 e he, hflag]; simp
  · refine state_ext ?_ ?_ ?_ ?_ ?_ rfl ?_ rfl ?_ ?_
    · rw [endContext_win, hb]; rfl
    · rw [hc.2.2.1.1, hev]
    · rw [endContext_cq, hb]; rfl
    · rw [endContext_slots, hb]; rfl
    · rw [endContext_targets, hb]; rfl
    · rw [endContext_entries, hb]; rfl
    · rw [endContext_rstHeld, hb]; rfl
    · rw [endContext_pending, hb]; rfl

/-- A context that serves no mailbox is cut off without a trace but its phase. -/
theorem endContext_idle (g : Seg) (s : State) (h : ServesNothing s g) : endContext g s = s.updCtx g (fun _ => { phase := .listen }) := by
  rcases h with h | h | h <;> simp [endContext, h, RxContext.inPhase]

theorem endPhase_serves (g : Seg) (s : State) (h : ServesNothing s g) : endPhase g s = s := by
  apply endPhase_idle <;> rcases h with h | h | h <;> simp [h]

/-! ### The begin of an attempt -/

/-- sendStart, where the context serves no mailbox, puts the segment in the state that started says (R67, R151). -/
theorem sendStart_spec (g : Seg) (s : State) (h : ServesNothing s g) :
    sendStart g s = s.updSeg g (fun x => started x x.engine) := by
  unfold sendStart contextStart
  rw [endPhase_serves _ _ (by simpa [ServesNothing, State.ctx] using h)]
  refine state_ext rfl rfl rfl rfl rfl (segs_ext fun j => ?_) rfl rfl rfl rfl
  by_cases hj : j = g <;> simp [hj, started, RxContext.inPhase]

/-- meetBus leaves the segment as metBus says, by the condition of its bus (R67 to R69). -/
theorem meetBus_spec (g : Seg) (held : Nat) (s : State) (h : (s.seg g).known = true ∨ ServesNothing s g) :
    OnlySegment s (meetBus g held s) g (metBus (s.seg g) (s.engine g) held) ∧
      Raises s (meetBus g held s) (if Stuck (s.seg g) held then [.segChange g] else []) ∧
      meetBus g held s = { s with ev := (meetBus g held s).ev, segs := (meetBus g held s).segs } := by
  unfold meetBus metBus
  by_cases h1 : Stuck (s.seg g) held
  · replace h : ServesNothing s g := h.resolve_left (by rw [h1.1]; decide)
    rw [if_pos ((busStuck_iff _ _).mpr h1), if_pos h1, if_pos h1]
    have hr := enterRecovery_spec g s
    have hboxes : (enterRecovery g s).boxes = s.boxes := by
      refine hr.2.1.other ?_ ?_ <;> rcases h with h | h | h <;> simp [h]
    refine ⟨hr.2.2.1, ⟨?_, fun e => ?_⟩, ?_⟩
    · exact congrArg State.ev hr.2.2.2.2
    · by_cases he : e = .inboundLost
      · subst he
        rw [hr.2.1.lost]
        rcases h with h | h | h <;> simp [h]
      · rw [hr.2.2.2.1 e he]; simp
    · have e := fun {α : Type} (p : State → α) => congrArg p hr.2.2.2.2
      exact state_ext (e State.win) rfl (e State.cq) (e State.slots) (e State.targets) rfl (e State.entries) hboxes (e State.rstHeld)
        (e State.pending)
  · rw [if_neg (mt (busStuck_iff _ _).mp h1), if_neg h1, if_neg h1]
    by_cases h2 : Free (s.seg g) (s.engine g).speed held
    · rw [if_pos ((busFree_iff _ _ _).mpr h2), if_pos h2,
        sendStart_spec g s (h.resolve_left (by rw [h2.1]; decide))]
      exact ⟨onlySegment_updSeg s g _, raises_congr (raises_refl s) rfl rfl, rfl⟩
    · rw [if_neg (mt (busFree_iff _ _ _).mp h2), if_neg h2]
      by_cases h3 : Busy (s.seg g) held
      · rw [if_pos ((busBusy_iff _).mpr h3.2), if_pos h3]
        exact ⟨onlySegment_updSeg s g _, raises_congr (raises_refl s) rfl rfl, rfl⟩
      · rw [if_neg (fun hb => h3 ⟨h1, (busBusy_iff _).mp hb⟩), if_neg h3]
        exact ⟨⟨rfl, fun _ _ => rfl⟩, raises_refl s, rfl⟩

/-- fixAttempt clears the slot's progress and leaves its engine as attemptEngine says (R65, R66). -/
theorem fixAttempt_spec (g : Seg) (n : SlotId) (k : TargetId) (s : State) (h : s.targetIndex n = some k) :
    fixAttempt g n s = (s.updSlot n (fun x => { x with bytesAccepted := 0, readData := [] })).updSeg g
      (fun x => { x with engine := attemptEngine s g n k (s.engine g).lastFailure }) := by
  refine state_ext rfl rfl rfl rfl rfl (segs_ext fun j => ?_) rfl rfl rfl rfl
  by_cases hj : j = g
  · subst hj
    simp [fixAttempt, attemptEngine, entryOf_eq h, State.engine, effectiveSpeed]
    congr
  · simp [fixAttempt, hj]

/-! ### The failure evaluation -/

/-- Two states that differ in their work, their segments and their flags alone. -/
def SameRest (s t : State) : Prop :=
  t.win = s.win ∧ t.entries = s.entries ∧ t.boxes = s.boxes ∧ t.rstHeld = s.rstHeld ∧ t.pending = s.pending

theorem sameRest_eq {s t : State} (h : SameRest s t) :
    t = { s with slots := t.slots, targets := t.targets, cq := t.cq, ev := t.ev, segs := t.segs } :=
  state_ext h.1 rfl rfl rfl rfl rfl h.2.1 h.2.2.1 h.2.2.2.1 h.2.2.2.2

theorem sameRest_trans {s t u : State} (h : SameRest s t) (k : SameRest t u) : SameRest s u :=
  ⟨k.1.trans h.1, k.2.1.trans h.2.1, k.2.2.1.trans h.2.2.1, k.2.2.2.1.trans h.2.2.2.1, k.2.2.2.2.trans h.2.2.2.2⟩

/-- The entry of slot n becomes QUARANTINED, with the flag unless it was so (R104, R107). -/
theorem quarantine_spec (n : SlotId) (k : TargetId) (s : State) (h : s.targetIndex n = some k) :
    (∀ j, (quarantine n s).target j = if j = k then { s.target k with presence := .quarantined } else s.target j) ∧
      (∀ e, (quarantine n s).flag e = (s.flag e || decide (e = .targetQuarantined ∧ (s.target k).presence ≠ .quarantined))) ∧
      (quarantine n s).slots = s.slots ∧ (quarantine n s).segs = s.segs ∧ (quarantine n s).cq = s.cq ∧
      (quarantine n s).ev = { s.ev with flags := (quarantine n s).ev.flags } ∧ SameRest s (quarantine n s) := by
  unfold quarantine
  rw [entryOf_eq h, updEntryOf_eq _ h]
  by_cases hq : (s.target k).presence = .quarantined
  · rw [if_pos hq]
    refine ⟨fun j => ?_, fun e => by simp [hq], rfl, rfl, rfl, rfl, rfl, rfl, rfl, rfl, rfl⟩
    split
    · rename_i hj; subst hj; rw [← hq]
    · rfl
  · rw [if_neg hq]
    exact ⟨fun j => by simp, fun e => by simp [hq], rfl, rfl, rfl, rfl, rfl, rfl, rfl, rfl, rfl⟩

/-- Only the entry of slot n changes, to countedEntry (R95). -/
theorem countFailure_spec (n : SlotId) (k : TargetId) (f : Failure) (s : State) (h : s.targetIndex n = some k) :
    countFailure n f s = s.updTarget k (fun e => countedEntry e f) := by
  have hmin : ∀ c, min (c + 1) Config.maxFailureCount = if c < 15 then c + 1 else 15 := by
    intro c; simp only [Config.maxFailureCount]; split <;> omega
  unfold countFailure countedEntry
  rw [updEntryOf_eq _ h]
  by_cases hf : f.isTarget = true
  · simp only [hf, if_true, hmin]
  · simp only [hf]
    exact state_ext rfl rfl rfl rfl (targets_ext fun j => by by_cases hj : j = k <;> simp [hj]) rfl rfl rfl rfl rfl

theorem markAbsent_spec (n : SlotId) (k : TargetId) (f : Failure) (s : State) (h : s.targetIndex n = some k) :
    markAbsent n f s = s.updTarget k (fun e => givenUp e f) := by
  unfold markAbsent
  rw [updEntryOf_eq _ h]; rfl

/-- The completion that ends an evaluation, of a state v that differs from s by the slot, the entry, flags and segments. -/
theorem finishSlot_from {s v : State} {g : Seg} {n : SlotId} {k : TargetId} (st : Status) (hidx : s.targetIndex n = some k)
    (hslots : ∀ m, m ≠ n → v.slot m = s.slot m) (hnotify : (v.slot n).notifyNow = (s.slot n).notifyNow)
    (htarget : (v.slot n).target = (s.slot n).target) (hent : ∀ j, j ≠ k → v.target j = s.target j)
    (hcq : v.cq = s.cq) (hflag : v.flag .cqReady = s.flag .cqReady) (hev : v.ev = { s.ev with flags := v.ev.flags }) :
    Completes s (finishSlot g n st v) n (v.slot n) (v.target k) st ∧ (finishSlot g n st v).engine g = {} ∧
      (∀ e, e ≠ .cqReady → (finishSlot g n st v).flag e = v.flag e) ∧
      (finishSlot g n st v).ev = { s.ev with flags := (finishSlot g n st v).ev.flags } ∧
      OnlySegment v (finishSlot g n st v) g { v.seg g with engine := {} } ∧ SameRest v (finishSlot g n st v) := by
  have hv : v.targetIndex n = s.targetIndex n := by simp only [State.targetIndex, htarget]
  obtain ⟨hc, hr, ho, hf⟩ := finishSlot_spec g n st v
  have e := fun {α : Type} (p : State → α) => congrArg p hf
  rw [entryOf_eq (hv.trans hidx)] at hc
  refine ⟨completes_transfer hc hslots hnotify hv ?_ hcq hflag (by rw [hev]), ?_, fun e he => ?_, ?_, ho,
    e State.win, e State.entries, e State.boxes, e State.rstHeld, e State.pending⟩
  · exact fun j hj => hent j (fun hjk => hj (by rw [hidx, hjk]))
  · show ((finishSlot g n st v).seg g).engine = {}
    rw [ho.1]
  · rw [Bool.eq_iff_iff, hr.2 e he]; simp
  · rw [hr.1, hev]

/-- The state that the evaluation goes on from, once the counts are raised and the status is recorded (R96). -/
theorem recordFailure_spec (g : Seg) (n : SlotId) (k : TargetId) (f : Failure) (u : State) (h : u.targetIndex n = some k) :
    recordFailure g n f u =
      ((u.updSlot n (fun x => { x with failures := x.failures + 1 })).updTarget k (fun e => countedEntry e f)).updEngine g
        (fun e => { e with lastFailure := some f }) := by
  unfold recordFailure
  rw [countFailure_spec n k f _ (by rw [← h]; simp [State.targetIndex])]

/-- evaluateFailure is the failure evaluation of R96, on a state u that differs from s by the segment of the engine and by flags. -/
theorem evaluateFailure_spec {s u : State} {g : Seg} {n : SlotId} {k : TargetId} {x : Segment} {fs : List EventFlag} (f : Failure)
    (hidx : s.targetIndex n = some k) (hact : x.engine.active = some n) (haddr : x.engine.address = (s.engine g).address)
    (hspeed : x.engine.speed = (s.engine g).speed) (hconfig : x.config = (s.seg g).config) (hseg : OnlySegment s u g x)
    (hslots : u.slots = s.slots) (htargets : u.targets = s.targets) (hcq : u.cq = s.cq)
    (hev : u.ev = { s.ev with flags := u.ev.flags }) (hrest : SameRest s u)
    (hflags : ∀ e, u.flag e = true ↔ s.flag e = true ∨ e ∈ fs) (hready : EventFlag.cqReady ∉ fs)
    (hquar : EventFlag.targetQuarantined ∉ fs) : Evaluates s (evaluateFailure g f u) g n k f x fs := by
  have huslot : ∀ m, u.slot m = s.slot m := fun m => by simp [State.slot, hslots]
  have hutarget : ∀ j, u.target j = s.target j := fun j => by simp [State.target, htargets]
  have hua : (u.engine g).active = some n := by simp [State.engine, hseg.1, hact]
  have hui : u.targetIndex n = some k := by rw [← hidx]; simp [State.targetIndex, huslot]
  obtain ⟨r, hr⟩ : ∃ r, r = recordFailure g n f u := ⟨_, rfl⟩
  rw [recordFailure_spec g n k f u hui] at hr
  have hrslot : ∀ m, r.slot m = if m = n then { s.slot n with failures := (s.slot n).failures + 1 } else s.slot m := by
    intro m; rw [hr]; simp [huslot]
  have hrtarget : ∀ j, r.target j = if j = k then countedEntry (s.target k) f else s.target j := by
    intro j; rw [hr]; simp [hutarget]
  have hrseg : ∀ j, r.seg j = if j = g then { x with engine := { x.engine with lastFailure := some f } } else s.seg j := by
    intro j; rw [hr, updEngine_seg]
    by_cases hj : j = g
    · simp [hj, hseg.1, State.engine]
    · simp [hj, hseg.2 j hj]
  have hrcq : r.cq = s.cq := by rw [hr]; exact hcq
  have hrev : r.ev = { s.ev with flags := r.ev.flags } := by rw [hr]; exact hev
  have hrrest : SameRest s r := by rw [hr]; exact hrest
  have hrflag : ∀ e, r.flag e = true ↔ s.flag e = true ∨ e ∈ fs := by intro e; rw [hr]; exact hflags e
  have hrready : r.flag .cqReady = s.flag .cqReady := by rw [Bool.eq_iff_iff, hrflag]; simp [hready]
  have hrq : r.flag .targetQuarantined = s.flag .targetQuarantined := by rw [Bool.eq_iff_iff, hrflag]; simp [hquar]
  have hri : r.targetIndex n = some k := by rw [← hidx]; simp [State.targetIndex, hrslot]
  have hre : r.entryOf n = countedEntry (s.target k) f := by rw [entryOf_eq hri, hrtarget]; simp
  have hretry : (countedEntry (s.target k) f).retryLimit = (s.target k).retryLimit := by unfold countedEntry; split <;> rfl
  have hpres : (countedEntry (s.target k) f).presence = (s.target k).presence := by unfold countedEntry; split <;> rfl
  have hthr : (countedEntry (s.target k) f).thresholdMet f = true ↔ MeetsThreshold (s.target k) f := by
    have : (countedEntry (s.target k) f).threshold = (s.target k).threshold := by unfold countedEntry; split <;> rfl
    simp [TargetEntry.thresholdMet, MeetsThreshold, this, and_assoc]
  have hmark : (r.slot n).mark = (s.slot n).mark := by rw [hrslot]; simp
  have hfail : (r.slot n).failures = (s.slot n).failures + 1 := by rw [hrslot]; simp
  have heval : evaluateFailure g f u =
      if f = .lengthError then finishSlot g n f.status r
      else if (r.entryOf n).thresholdMet f then finishSlot g n f.status (quarantine n r)
      else if (r.entryOf n).retryLimit.toNat < (r.slot n).failures then finishSlot g n f.status (markAbsent n f r)
      else enterBackoff g n r := by
    unfold evaluateFailure; rw [hua, hr, ← recordFailure_spec g n k f u hui]
  have hq := quarantine_spec n k r hri
  -- every completing case, from a state v that differs from r by the entry of n and its flag
  have close : ∀ (st : Status) (v : State), v.slots = r.slots → v.segs = r.segs → v.cq = r.cq →
      v.ev = { r.ev with flags := v.ev.flags } → SameRest r v → (∀ j, j ≠ k → v.target j = s.target j) →
      (∀ e, e ≠ .targetQuarantined → v.flag e = r.flag e) →
      Completes s (finishSlot g n st v) n { s.slot n with failures := (s.slot n).failures + 1 } (v.target k) st ∧
        (finishSlot g n st v).engine g = {} ∧ (finishSlot g n st v).flag .targetQuarantined = v.flag .targetQuarantined ∧
        OnlySegment s (finishSlot g n st v) g { x with engine := (finishSlot g n st v).engine g } ∧
        SameRest s (finishSlot g n st v) ∧ (finishSlot g n st v).ev = { s.ev with flags := (finishSlot g n st v).ev.flags } ∧
        ∀ e, e ≠ .cqReady → e ≠ .targetQuarantined → ((finishSlot g n st v).flag e = true ↔ s.flag e = true ∨ e ∈ fs) := by
    intro st v v1 v2 v3 v4 v5 v6 v7
    have vslot : ∀ m, v.slot m = r.slot m := fun m => by simp [State.slot, v1]
    have vseg : ∀ j, v.seg j = r.seg j := fun j => by simp [State.seg, v2]
    have vn : v.slot n = { s.slot n with failures := (s.slot n).failures + 1 } := by rw [vslot, hrslot]; simp
    obtain ⟨c1, c2, c3, c4, c5, c6⟩ := finishSlot_from (g := g) (v := v) st hidx (fun m hm => by rw [vslot, hrslot]; simp [hm])
      (by rw [vn]) (by rw [vn]) v6 (by rw [v3, hrcq]) (by rw [v7 _ (by simp), hrready]) (by rw [v4, hrev])
    rw [vn] at c1
    refine ⟨c1, c2, c3 _ (by simp), ⟨?_, fun j hj => ?_⟩, sameRest_trans (sameRest_trans hrrest v5) c6, c4, fun e h1 h2 => ?_⟩
    · rw [c5.1, c2, vseg, hrseg]; simp
    · rw [c5.2 j hj, vseg, hrseg]; simp [hj]
    · rw [c3 e h1, v7 e h2, hrflag]
  have cr := fun st => close st r rfl rfl rfl rfl ⟨rfl, rfl, rfl, rfl, rfl⟩ (fun j hj => by rw [hrtarget]; simp [hj]) (fun _ _ => rfl)
  have cq := fun st => close st (quarantine n r) hq.2.2.1 hq.2.2.2.1 hq.2.2.2.2.1 hq.2.2.2.2.2.1 hq.2.2.2.2.2.2
    (fun j hj => by rw [hq.1]; simp [hrtarget, hj]) (fun e he => by rw [hq.2.1]; simp [he])
  have cm := fun st => close st (markAbsent n f r) (by rw [markAbsent_spec n k f r hri]; rfl) (by rw [markAbsent_spec n k f r hri]; rfl)
    (by rw [markAbsent_spec n k f r hri]; rfl) (by rw [markAbsent_spec n k f r hri]; rfl)
    (by rw [markAbsent_spec n k f r hri]; exact ⟨rfl, rfl, rfl, rfl, rfl⟩)
    (fun j hj => by rw [markAbsent_spec n k f r hri, updTarget_target]; simp [hrtarget, hj])
    (fun e _ => by rw [markAbsent_spec n k f r hri]; rfl)
  simp only [hrtarget, if_true] at cr
  simp only [hq.1, hrtarget, if_true] at cq
  simp only [markAbsent_spec n k f r hri, updTarget_target, hrtarget, if_true] at cm
  rw [heval]
  by_cases h1 : f = .lengthError
  · rw [if_pos h1]
    obtain ⟨c1, c2, c3, c4, c5, c6, c7⟩ := cr f.status
    exact { segment := c4, frame := sameRest_eq c5, flags := ⟨c6, c7⟩, lengthError := fun _ => ⟨c1, c2, by rw [c3, hrq]⟩
            quarantined := fun h => absurd h1 h, givenUp := fun h => absurd h1 h, marked := fun h => absurd h1 h
            backoff := fun h => absurd h1 h }
  rw [if_neg h1]
  by_cases h2 : MeetsThreshold (s.target k) f
  · rw [if_pos (by rw [hre]; exact hthr.mpr h2)]
    obtain ⟨c1, c2, c3, c4, c5, c6, c7⟩ := cq f.status
    exact { segment := c4, frame := sameRest_eq c5, flags := ⟨c6, c7⟩, lengthError := fun h => absurd h h1
            quarantined := fun _ _ => ⟨c1, c2, by rw [c3, hq.2.1, hrtarget]; simp [hrq, hpres]⟩
            givenUp := fun _ h => absurd h2 h, marked := fun _ h => absurd h2 h, backoff := fun _ h => absurd h2 h }
  rw [if_neg (by rw [hre]; exact mt hthr.mp h2)]
  by_cases h3 : (s.target k).retryLimit.toNat < (s.slot n).failures + 1
  · rw [if_pos (by rw [hre, hretry, hfail]; exact h3), markAbsent_spec n k f r hri]
    obtain ⟨c1, c2, c3, c4, c5, c6, c7⟩ := cm f.status
    exact { segment := c4, frame := sameRest_eq c5, flags := ⟨c6, c7⟩, lengthError := fun h => absurd h h1
            quarantined := fun _ h => absurd h h2, givenUp := fun _ _ _ => ⟨c1, c2, by rw [c3]; exact hrq⟩
            marked := fun _ _ h => by omega, backoff := fun _ _ h => by omega }
  rw [if_neg (by rw [hre, hretry, hfail]; exact h3)]
  unfold enterBackoff
  cases h4 : (r.slot n).mark.status with
  | some st =>
    obtain ⟨c1, c2, c3, c4, c5, c6, c7⟩ := cr st
    exact { segment := c4, frame := sameRest_eq c5, flags := ⟨c6, c7⟩, lengthError := fun h => absurd h h1
            quarantined := fun _ h => absurd h h2, givenUp := fun _ _ h => absurd h h3
            marked := fun _ _ _ st' hst' => by
              have he := (status_eq_some (r.slot n) st').mpr (by simpa [HasMark, hmark] using hst')
              rw [h4] at he
              obtain rfl := Option.some.inj he
              exact ⟨c1, c2, by rw [c3, hrq]⟩
            backoff := fun _ _ _ h => by rw [← hmark, ← status_eq_none, h4] at h; simp at h }
  | none =>
    have hnone : (s.slot n).mark = .none := by rw [← hmark]; exact (status_eq_none _).mp h4
    refine { segment := ⟨?_, fun j hj => ?_⟩, frame := sameRest_eq hrrest, flags := ⟨hrev, fun e _ _ => hrflag e⟩
             lengthError := fun h => absurd h h1, quarantined := fun _ h => absurd h h2, givenUp := fun _ _ h => absurd h h3
             marked := fun _ _ _ st' hst' => by
               rcases hst' with ⟨h, _⟩ | ⟨h, _⟩ <;> simp [hnone] at h
             backoff := fun _ _ _ _ => ⟨?_, fun m hm' => ?_, ?_, fun j hj => ?_, hrcq, hrready, hrq, ?_⟩ }
    · simp [hrseg]
    · simp [hj, hrseg]
    · simp [hrslot]
    · simp [hrslot, hm']
    · simp [hrtarget]
    · simp [hrtarget, hj]
    · simp [hrseg, waitEngine, hact, haddr, hspeed, hconfig, hfail, backoffTime, Config.unit]

end Sys2Proof.Machine
end

