-- ==== Sys2Proof/Laws/Window.lean ====
section
/-! SUPPORT. What a command written to CMD and an access of the table port leave, each said once in the words of Claims.lean (chapter 10). -/

namespace Sys2Proof.Machine

open Sys2Proof.Claims

/-! ### Commands -/

@[simp] theorem storeCode_argNumber (code : BitVec 8) (s : State) : (storeCode code s).argNumber = s.argNumber := rfl

@[simp] theorem storeCode_argLength (code : BitVec 8) (s : State) : (storeCode code s).argLength = s.argLength := rfl

@[simp] theorem storeCode_slot (code : BitVec 8) (s : State) (j : SlotId) : (storeCode code s).slot j = s.slot j := rfl
@[simp] theorem storeCode_target (code : BitVec 8) (s : State) (j : TargetId) : (storeCode code s).target j = s.target j := rfl
@[simp] theorem storeCode_seg (code : BitVec 8) (s : State) (j : Seg) : (storeCode code s).seg j = s.seg j := rfl
@[simp] theorem storeCode_engine (code : BitVec 8) (s : State) (j : Seg) : (storeCode code s).engine j = s.engine j := rfl
@[simp] theorem storeCode_ctx (code : BitVec 8) (s : State) (j : Seg) : (storeCode code s).ctx j = s.ctx j := rfl
@[simp] theorem storeCode_entry (code : BitVec 8) (s : State) (j : EntryId) : (storeCode code s).entry j = s.entry j := rfl
@[simp] theorem storeCode_box (code : BitVec 8) (s : State) (j : BoxId) : (storeCode code s).box j = s.box j := rfl
@[simp] theorem storeCode_targetIndex (code : BitVec 8) (s : State) (j : SlotId) : (storeCode code s).targetIndex j = s.targetIndex j := rfl
@[simp] theorem storeCode_entryOf (code : BitVec 8) (s : State) (j : SlotId) : (storeCode code s).entryOf j = s.entryOf j := rfl
@[simp] theorem storeCode_holder (code : BitVec 8) (s : State) (j : BoxId) : (storeCode code s).holder j = s.holder j := rfl
@[simp] theorem storeCode_flag (code : BitVec 8) (s : State) (j : EventFlag) : (storeCode code s).flag j = s.flag j := rfl
@[simp] theorem storeCode_cq (code : BitVec 8) (s : State) : (storeCode code s).cq = s.cq := rfl
@[simp] theorem storeCode_ev (code : BitVec 8) (s : State) : (storeCode code s).ev = s.ev := rfl
@[simp] theorem storeCode_freeCount (code : BitVec 8) (s : State) : (storeCode code s).freeCount = s.freeCount := rfl
@[simp] theorem storeCode_lowestFree (code : BitVec 8) (s : State) : (storeCode code s).lowestFree = s.lowestFree := rfl
@[simp] theorem storeCode_argMode (code : BitVec 8) (s : State) : (storeCode code s).argMode = s.argMode := rfl

/-- What CMDRES takes at a command's end (R182). -/
def CmdResult.put (r : CmdResult) (value : Nat) (w : Window) : Window := { w with cmdResult := r, cmdValue := BitVec.ofNat 8 value }

/-- A command whose number names unit n is the command on n. -/
theorem runCommand_number {k : Nat} {f : Fin k → State → Reply} {code : BitVec 8} {s : State} {n : Fin k} (h : s.argNumber = n.val) :
    runCommand code (withNumber k f) s = runCommand code (f n) s := by
  have hlt : s.argNumber < k := h ▸ n.isLt
  have : withNumber k f (storeCode code s) = f n (storeCode code s) := by
    unfold withNumber
    rw [dif_pos (show (storeCode code s).argNumber < k from hlt)]
    exact congrArg (fun i => f i (storeCode code s)) (Fin.ext h)
  unfold runCommand onWindow
  simp only [this]

/-- An accepted command: its effect, with DONE and the returned value in CMDRES (R182). -/
theorem runCommand_accept {code : BitVec 8} {f : State → Reply} {s u : State} {value : Nat} (ho : s.windowOpen = true)
    (h : f (storeCode code s) = accept u value) : runCommand code f s = u.updWin (CmdResult.done.put value) := by
  rw [runCommand, onWindow_open _ ho, h]; rfl

/-- A refused command that leaves a state u: its result and returned value in CMDRES, and CMD_ERROR (R182). -/
theorem runCommand_refuse {code : BitVec 8} {f : State → Reply} {s u : State} {r : CmdResult} {value : Nat} (ho : s.windowOpen = true)
    (h : f (storeCode code s) = refuse u r value) (hr : r ≠ .done) :
    runCommand code f s = (u.raise .cmdError).updWin (r.put value) := by
  rw [runCommand, onWindow_open _ ho, h]
  unfold Reply.record
  rw [if_neg (show ¬ (refuse u r value).result = .done from hr)]
  rfl

/-- A refused command that leaves all else as it was. -/
theorem runCommand_refused {code : BitVec 8} {f : State → Reply} {s : State} {r : CmdResult} {value : Nat} (ho : s.windowOpen = true)
    (h : f (storeCode code s) = refuse (storeCode code s) r value) (hr : r ≠ .done) :
    RefusedWith s (runCommand code f s) code r value := by
  rw [runCommand_refuse ho h hr]
  exact ⟨rfl, raises_congr (raises_raise s .cmdError) rfl rfl, rfl⟩

theorem withNumber_none {k : Nat} {f : Fin k → State → Reply} {s : State} (h : k ≤ s.argNumber) :
    withNumber k f s = refuse s .badArgument 0 := by
  unfold withNumber
  rw [dif_neg (by omega)]

/-! ### The table port -/

/-- A refused write of the table port (R184). -/
theorem refused_spec (st : TableStatus) (s : State) : TableRefused s (refused st s) st :=
  ⟨rfl, raises_congr (raises_raise s .tableError) rfl rfl, rfl⟩

/-- An accepted access of the table port, over the state that the write has left (R184). -/
theorem accepted_spec (st : TableStatus) (s : State) : accepted st s = s.updWin (fun _ => accessed s st) := rfl

end Sys2Proof.Machine
end

