-- ==== Sys2Proof/Laws/Words.lean ====
section
/-! SUPPORT. What a word that is built of fields shows: each field at its bits and 0 elsewhere, the words that a TDATA read returns, and the
row that a strobe is taken as. -/

namespace Sys2Proof.Machine

open Sys2Proof.Claims

/-- The bits of a placed value. -/
theorem getLsbD_place (lo n i : Nat) : (place lo n).getLsbD i = (decide (i < 16) && (decide (lo ≤ i) && n.testBit (i - lo))) := by
  rw [place, BitVec.getLsbD_ofNat, Nat.testBit_mul_two_pow]

/-- The word of a list of fields. -/
def placed (fs : List (Nat × Nat × Nat)) : Word := fs.foldr (fun f w => place f.1 f.2.2 ||| w) 0

theorem getLsbD_placed (fs : List (Nat × Nat × Nat)) (i : Nat) :
    (placed fs).getLsbD i = fs.any (fun f => (place f.1 f.2.2).getLsbD i) := by
  induction fs with
  | nil => simp [placed]
  | cons f fs ih =>
    rw [show placed (f :: fs) = place f.1 f.2.2 ||| placed fs from rfl, BitVec.getLsbD_or, ih, List.any_cons]

/-- Fields that lie in a word and apart from each other, each wide enough for its value, are shown by the word that is built of them. -/
theorem fields_placed (fs : List (Nat × Nat × Nat)) (inside : ∀ f ∈ fs, f.1 + f.2.1 ≤ 16) (fits : ∀ f ∈ fs, f.2.2 < 2 ^ f.2.1)
    (apart : ∀ f ∈ fs, ∀ e ∈ fs, e = f ∨ f.1 + f.2.1 ≤ e.1 ∨ e.1 + e.2.1 ≤ f.1) : Fields (placed fs) fs := by
  have zero : ∀ f ∈ fs, ∀ i : Nat, (i < f.1 ∨ f.1 + f.2.1 ≤ i) → (place f.1 f.2.2).getLsbD i = false := by
    intro f hf i hi
    rw [getLsbD_place]
    by_cases h : f.1 ≤ i
    · have : f.2.2.testBit (i - f.1) = false :=
        Nat.testBit_lt_two_pow (lt_of_lt_of_le (fits f hf) (Nat.pow_le_pow_right (by decide) (by omega)))
      simp [this]
    · simp [h]
  constructor
  · intro f hf
    have h : (placed fs).extractLsb' f.1 f.2.1 = BitVec.ofNat f.2.1 f.2.2 := by
      apply BitVec.eq_of_getLsbD_eq
      intro i hi
      have hin := inside f hf
      rw [BitVec.getLsbD_extractLsb', BitVec.getLsbD_ofNat, getLsbD_placed]
      have hany : fs.any (fun e => (place e.1 e.2.2).getLsbD (f.1 + i)) = (place f.1 f.2.2).getLsbD (f.1 + i) := by
        rw [Bool.eq_iff_iff, List.any_eq_true]
        constructor
        · rintro ⟨e, he, hb⟩
          rcases apart f hf e he with rfl | h | h
          · exact hb
          · rw [zero e he _ (by omega)] at hb; cases hb
          · rw [zero e he _ (by omega)] at hb; cases hb
        · intro hb; exact ⟨f, hf, hb⟩
      rw [hany, getLsbD_place]
      simp only [hi, decide_true, Bool.true_and, show f.1 + i < 16 by omega, show f.1 ≤ f.1 + i by omega, Nat.add_sub_cancel_left]
    rw [h, BitVec.toNat_ofNat, Nat.mod_eq_of_lt (fits f hf)]
  · intro b hb
    rw [getLsbD_placed, List.any_eq_false]
    intro f hf
    rw [zero f hf b (hb f hf)]; simp

/-- A word of two bytes shows them. -/
theorem fields_wordOf (low high : Byte) : Fields (wordOf low high) [(0, 8, low.toNat), (8, 8, high.toNat)] := by
  have h : wordOf low high = placed [(0, 8, low.toNat), (8, 8, high.toNat)] := by
    apply BitVec.eq_of_toNat_eq
    have hl := low.isLt
    have hh := high.isLt
    simp only [wordOf, placed, place, List.foldr_cons, List.foldr_nil, BitVec.toNat_append, BitVec.toNat_or, BitVec.toNat_ofNat,
      Nat.pow_zero, Nat.mul_one]
    rw [Nat.shiftLeft_eq, Nat.lor_comm, Nat.mod_eq_of_lt (by omega), Nat.mod_eq_of_lt (by omega)]
    simp
  rw [h]
  have hl := low.isLt
  have hh := high.isLt
  apply fields_placed <;> simp <;> omega

/-- The codes of the model are those of the spec. -/
theorem codesOfTheFields : CodesOfTheFields := by
  refine ⟨rfl, rfl, rfl, rfl, rfl, rfl, rfl, rfl, rfl, rfl, ⟨rfl, fun st => rfl, rfl⟩, rfl, rfl, rfl, rfl, rfl⟩

/-- A TDATA read of a word in range returns its value (R184). -/
theorem tableRead_eq (s : State) (id i w : Nat) (x : TableWord) (ho : s.windowOpen = true) (h1 : id < 8) (h2 : i < 64) (h3 : w < 64)
    (hx : tableWord id i w = some x) : tableRead s id i w = s.tableValue x := by
  have hs : ∀ t : State, t.win.tselTable = BitVec.ofNat 3 id → t.win.tselInstance = BitVec.ofNat 6 i →
      t.win.tidxIndex = BitVec.ofNat 6 w → t.selected = some x := by
    intro t a b c
    rw [State.selected, a, b, c, BitVec.toNat_ofNat, BitVec.toNat_ofNat, BitVec.toNat_ofNat, Nat.mod_eq_of_lt h1, Nat.mod_eq_of_lt h2,
      Nat.mod_eq_of_lt h3, hx]
  simp only [tableRead, exec, execTdataRead]
  rw [if_pos (by simpa [State.windowOpen] using ho), tdataRead, hs _ rfl rfl rfl]
  cases x <;> rfl

/-- The step after a strobe is exec of the row that it is taken as (R179). -/
theorem strobe_step {s : State} {offset : Nat} {a : Access} {i : Instr} (h : strobeRow true (lines offset) a s = some i) :
    StrobeIs s offset a i := by
  refine ⟨h, ?_⟩
  rw [State.strobe, h]
  rfl

end Sys2Proof.Machine
end

