-- ==== Sys2Proof/WellFormed.lean ====
section
/-! DEFINITION. Which terms of Instr are commands of the block. A segment, a register, an undefined word and a byte are well
formed by their types; what is left to check is the code of an unknown command. -/

namespace Sys2Proof

/-- The terms that are commands of the block: an UNKNOWN_COMMAND carries a code that names no command (R182). -/
def Instr.wellFormed : Instr → Bool
  | .unknownCommand code => (Command.ofCode code).isNone
  | _ => true

end Sys2Proof
end

