-- ==== Sys2Proof/Tests/Slice0.lean ====
section
/-! SUPPORT. The tests: the well-formedness checks, one small step for the commands on states built here, with expected values worked out from
the rules, and for each statement with hypotheses a concrete state and operands that meet them (the witness theorems). -/

namespace Sys2Proof.Tests

open Sys2Proof.Machine Sys2Proof.Safety Sys2Proof.Claims

/-! ### Building states -/

/-- The state after a command; the state itself where a command would stop, which none does. -/
def after (i : Instr) (s : State) : State :=
  match exec i s with
  | .next t => t
  | _ => s

/-- CMDARG holds a word. -/
def arg (v : Word) (s : State) : State := s.updWin (fun w => { w with cmdArg := v })

/-- TSEL and TIDX select a word. -/
def select (table : BitVec 3) (inst idx : BitVec 6) (s : State) : State :=
  s.updWin (fun w => { w with tselTable := table, tselInstance := inst, tidxIndex := idx })

/-- Slot n is x, and so for the other units. -/
def slotIs (n : SlotId) (x : Slot) (s : State) : State := s.updSlot n (fun _ => x)

def targetIs (k : TargetId) (e : TargetEntry) (s : State) : State := s.updTarget k (fun _ => e)

def segIs (g : Seg) (x : Segment) (s : State) : State := s.updSeg g (fun _ => x)

def boxIs (m : BoxId) (b : Mailbox) (s : State) : State := s.updBox m (fun _ => b)

def entryIs (e : EntryId) (x : MatchEntry) (s : State) : State := s.updEntry e (fun _ => x)

/-- A segment in service with an engine and a context. -/
def up (e : Engine) (c : RxContext := {}) : Segment :=
  { state := .up, downMode := .none, gate := .connected, spg := true, engine := e, ctx := c }

/-- Target 0: valid, on S0 at 50h. -/
def there : TargetEntry := { valid := true, segment := 0, address := 0x50#7, refCount := 1 }

/-- A WRITE of two bytes to target 0. -/
def write2 : Slot := { kind := 1, target := 0, writeCount := 2 }

/-- S0 is UP with slot 0, a descriptor x, as the active slot of its engine e. -/
def busy (x : Slot) (e : Engine) (c : RxContext := {}) : State :=
  segIs 0 (up { e with active := some 0 } c) (targetIs 0 there (slotIs 0 { x with state := .active } State.reset))

/-- The engine of an attempt on the wire, at a step. -/
def at_ (pos : BytePos) : Engine := { state := .transfer, pos := pos, address := 0x50#7 }

/-- S0 works on slot 0, holds slot 1 in its list, and slot 2 is DONE with its record in the queue; a RETIRE waits. -/
def working : State :=
  { segIs 0 { up { at_ .address with active := some 0 } with list := [1] }
      (targetIs 0 { there with refCount := 2 }
        (slotIs 2 { write2 with state := .done, outcome := .completed .ok }
          (slotIs 1 { write2 with state := .pending } (slotIs 0 { write2 with state := .active } State.reset)))) with
    cq := { queue := [2] }, ev := { flags := 1 }, pending := [.retire] }


/-! ### Witnesses: the invariants -/

theorem working_step : ∃ t : State, step working = .next t := ⟨_, rfl⟩

theorem working_identity : IdentityInv working := by
  constructor <;> decide

theorem working_work : WorkInv working := by
  constructor <;> decide

theorem working_reference : ReferenceInv working := by
  constructor <;> decide

theorem working_power : PowerInv working := by
  refine ⟨?_, by decide, ?_⟩
  · intro g; constructor <;> revert g <;> decide
  · intro _ _ g; constructor <;> revert g <;> decide

theorem working_count : CountInv working := by
  refine ⟨by decide, by decide, by decide, by decide, by decide, fun n h => ⟨.write, ?_⟩, fun g n h => ?_, by decide, by decide⟩
  · have hn : n = 0 ∨ n = 1 := by revert n; decide
    rcases hn with rfl | rfl <;> constructor <;> decide
  · have hg : g = 0 ∧ n = 0 := by revert g n; decide
    obtain ⟨rfl, rfl⟩ := hg
    exact ⟨fun hw => absurd hw (by decide), fun _ _ => ⟨rfl, rfl⟩⟩

/-- A READ of two bytes with one read, and a BLOCK_READ whose count byte says one more: the next byte lies within each. -/
theorem reading_progress :
    ProgressInv { kind := 2, readCount := 2, readData := [7] } (at_ (.readByte 1)) ∧
      ProgressInv { kind := 5, readData := [1] } (at_ (.readByte 1)) :=
  ⟨⟨fun h => absurd h (by decide), fun _ _ => ⟨rfl, show 1 < (2#6).toNat by decide⟩⟩, ⟨fun h => absurd h (by decide), fun _ _ => ⟨rfl, Or.inr (by decide)⟩⟩⟩

theorem witness_EveryStepKeepsIdentities : IdentityInv working ∧ ∃ t : State, step working = .next t := ⟨working_identity, working_step⟩

theorem witness_EveryStepKeepsTheWork : PowerInv working ∧ WorkInv working ∧ ∃ t : State, step working = .next t :=
  ⟨working_power, working_work, working_step⟩

theorem witness_EveryStepKeepsReferenceCounts :
    IdentityInv working ∧ WorkInv working ∧ ReferenceInv working ∧ ∃ t : State, step working = .next t :=
  ⟨working_identity, working_work, working_reference, working_step⟩

theorem witness_EveryStepKeepsTheQueueSignalled : SignalInv working ∧ ∃ t : State, step working = .next t :=
  ⟨by constructor <;> decide, working_step⟩

theorem witness_EveryStepKeepsSegmentsInOrder : PowerInv working ∧ ∃ t : State, step working = .next t := ⟨working_power, working_step⟩

theorem working_mailbox : MailboxInv working := by
  refine ⟨fun m => ?_, ?_, ?_, ?_, ?_, ?_, ?_, ?_, ?_, ?_⟩
  · constructor <;> revert m <;> decide
  all_goals decide

theorem witness_EveryStepKeepsMailboxes : PowerInv working ∧ MailboxInv working ∧ ∃ t : State, step working = .next t :=
  ⟨working_power, working_mailbox, working_step⟩

theorem witness_EveryStepKeepsCountsInRange : WorkInv working ∧ CountInv working ∧ ∃ t : State, step working = .next t :=
  ⟨working_work, working_count, working_step⟩

/-! ### Witnesses: the window and the resets -/

/-- RST# is held, or DEVICE_RESET runs. -/
def inRst : State := { State.reset with rstHeld := true }

def inDeviceReset : State := after .deviceReset working

theorem witness_StepTakesTheFrontCommand : State.reset.pending = [] := rfl

theorem witness_ResetsCloseTheWindow :
    inDeviceReset.win.resetBusy = true ∧ inRst.rstHeld = true ∧ windowWrite .allocate = true ∧ segmentEvent (.remoteStart 5) = true ∧
      windowRead .tdataRead = true := by decide

theorem witness_BadCodesAndNumbersAreRefused :
    ((.releaseInbound, 0x20#8, 4) ∈ numbered ∧ (arg 4 State.reset).windowOpen = true ∧ 4 ≤ (arg 4 State.reset).argNumber) ∧
    ((.readmit, 0x18#8, 48) ∈ numbered ∧ 48 ≤ (arg 0xFF30#16 State.reset).argNumber) ∧ 0x07#8 ∉ commandCodes := by decide

theorem witness_DeviceResetBegins : working.windowOpen = true := by decide

theorem witness_DeviceResetEnds : inDeviceReset.win.resetBusy = true ∧ inDeviceReset.rstHeld = false := by decide

theorem witness_RstTakesResetValues : inRst.rstHeld = true := rfl

/-! ### Witnesses: slots, lists and the queue -/

/-- Every slot is in hand. -/
def full : State := { State.reset with slots := Vector.replicate 32 { state := .staged } }

theorem witness_SlotsAreTakenAndReturned :
    ((slotIs 31 {} full).windowOpen = true ∧ ((slotIs 31 {} full).slot 31).state = .free ∧
      ∀ m : SlotId, m < 31 → ((slotIs 31 {} full).slot m).state ≠ .free) ∧
    (full.windowOpen = true ∧ ∀ n : SlotId, (full.slot n).state ≠ .free) ∧
    ((arg 31 full).argNumber = 31 ∧ ((arg 31 full).slot 31).state = .staged) ∧
    ((arg 0 State.reset).argNumber = 0 ∧ ((arg 0 State.reset).slot 0).state ≠ .staged) := by decide

/-- Slot 0, STAGED as x, stands before its POST; target 0 is valid on S0. -/
def posting (x : Slot) : State := slotIs 0 { x with state := .staged } (targetIs 0 there State.reset)

theorem posting_identity (x : Slot) : IdentityInv (posting x) := by
  have h : IdentityInv (targetIs 0 there State.reset) := by constructor <;> decide
  exact ⟨h.usable, h.unique⟩

theorem witness_AcceptedPosts :
    ((segIs 0 (up {}) (posting write2)).windowOpen = true ∧ (segIs 0 (up {}) (posting write2)).argNumber = 0 ∧
      Postable (segIs 0 (up {}) (posting write2)) 0 .write 0 0 ∧ ¬ downAndFlushing ((segIs 0 (up {}) (posting write2)).seg 0)) ∧
    ((posting write2).windowOpen = true ∧ Postable (posting write2) 0 .write 0 0 ∧ downAndFlushing ((posting write2).seg 0) ∧
      ((posting write2).seg 0).list = [] ∧ ((posting write2).engine 0).active = none) := by decide

theorem witness_PostRefuses_state :
    IdentityInv State.reset ∧ State.reset.windowOpen = true ∧ State.reset.argNumber = 0 ∧ (State.reset.slot 0).state ≠ .staged :=
  ⟨by constructor <;> decide, by decide⟩

theorem witness_PostRefuses_kind :
    IdentityInv (posting {}) ∧ (posting {}).windowOpen = true ∧ (posting {}).argNumber = 0 ∧ ((posting {}).slot 0).state = .staged ∧
      ∀ kind : Kind, ¬ HasKind ((posting {}).slot 0) kind :=
  ⟨posting_identity _, by decide, by decide, by decide, fun kind => by cases kind <;> decide⟩

theorem witness_PostRefuses_target :
    IdentityInv (posting { write2 with target := 48 }) ∧ HasKind ((posting { write2 with target := 48 }).slot 0) .write ∧
      ∀ k : TargetId, ¬ NamesEntry (posting { write2 with target := 48 }) 0 k :=
  ⟨posting_identity _, by decide, by decide⟩

theorem witness_PostRefuses_length :
    IdentityInv (posting { write2 with writeCount := 33 }) ∧ HasKind ((posting { write2 with writeCount := 33 }).slot 0) .write ∧
      NamesEntry (posting { write2 with writeCount := 33 }) 0 0 ∧ ¬ LengthRule .write 33 0 :=
  ⟨posting_identity _, by decide, by decide, by decide⟩

/-- A POLL of one write byte, interval 50 and limit 2. -/
def poll : Slot := { kind := 6, target := 0, writeCount := 1, pollMask := 0xFF, pollMatch := 1, pollInterval := 50, pollLimit := 2 }

theorem witness_PostRefuses_poll :
    IdentityInv (posting { poll with pollLimit := 0 }) ∧ HasKind ((posting { poll with pollLimit := 0 }).slot 0) .poll ∧
      NamesEntry (posting { poll with pollLimit := 0 }) 0 0 ∧ LengthRule .poll 1 0 ∧ ¬ PollRule { poll with pollLimit := 0 } .poll :=
  ⟨posting_identity _, by decide, by decide, by decide, by decide⟩

/-- The engine in BACKOFF after a NACK_ADDRESS, and in POLL_WAIT. -/
def backing : Engine := { state := .backoff, lastFailure := some .nackAddress, backoffTimer := some 1000 }

def polling : Engine := { state := .pollWait, pollTimer := some 5000 }

theorem witness_AbortMarksOrEndsTheSlot :
    ((arg 31 State.reset).windowOpen = true ∧ (arg 31 State.reset).argNumber = 31 ∧ ((arg 31 State.reset).slot 31).state = .free) ∧
    ((busy { write2 with mark := .flushed } {}).argNumber = 0 ∧ ((busy { write2 with mark := .flushed } {}).slot 0).state = .active ∧
      ((busy { write2 with mark := .flushed } {}).slot 0).mark ≠ .none) ∧
    ((arg 1 working).argNumber = 1 ∧ ((arg 1 working).slot 1).mark = .none ∧ ((arg 1 working).slot 1).state = .pending) ∧
    (((arg 0 working).slot 0).state = .active ∧ ((arg 0 working).engine 0).active = some 0 ∧ HoldsBus ((arg 0 working).engine 0)) ∧
    (((busy write2 backing).slot 0).mark = .none ∧ ((busy write2 backing).slot 0).state = .active ∧
      Waiting (busy write2 backing) ((busy write2 backing).slot 0).segment 0) := by decide

/-- As working, with the engine of S0 waiting in BACKOFF. -/
def waiting : State := working.updEngine 0 (fun _ => { backing with active := some 0 })

theorem witness_FlushMarksTheSegment :
    (WorkInv working ∧ working.windowOpen = true ∧ working.argNumber = 0 ∧ HoldsBus (working.engine 0)) ∧
    (WorkInv waiting ∧ waiting.windowOpen = true ∧ waiting.argNumber = 0 ∧ Waiting waiting 0 0 ∧ (waiting.slot 0).mark = .none) :=
  ⟨⟨working_work, by decide⟩, ⟨by constructor <;> decide, by decide⟩⟩

theorem witness_RetireFreesTheHeadRecord :
    (working.windowOpen = true ∧ working.cq.queue = 2 :: [] ∧ (working.slot 2).state = .done) ∧
    (State.reset.windowOpen = true ∧ State.reset.cq.queue = []) := by decide

/-! ### Witnesses: segments, targets and mailboxes -/

/-- S5 is OFFLINE. -/
def offlined : State := segIs 5 { state := .offline, downMode := .holding, spg := true } State.reset

theorem witness_OfflineLeavesService :
    ((arg 0x0105#16 State.reset).windowOpen = true ∧ (arg 0x0105#16 State.reset).argNumber = 5 ∧
      ((arg 0x0105#16 State.reset).seg 5).state = .dark) ∧
    ((arg 5 offlined).argNumber = 5 ∧ ((arg 5 offlined).seg 5).state = .offline) ∧
    ((working.seg 0).state = .up ∧ HoldsBus (working.engine 0) ∧ ¬ ClockHeld (working.engine 0)) ∧
    ((waiting.seg 0).state = .up ∧ ¬ (HoldsBus (waiting.engine 0) ∧ ¬ ClockHeld (waiting.engine 0))) := by decide

theorem witness_OnlineRequalifies :
    ((arg 5 State.reset).argNumber = 5 ∧ ((arg 5 State.reset).seg 5).state ≠ .offline) ∧
    ((arg 5 offlined).windowOpen = true ∧ ((arg 5 offlined).seg 5).state = .offline) := by decide

/-- The work of S0 with nothing in the queue, a delay of 300 µs and a threshold. -/
def unsignalled (threshold : BitVec 6) : State :=
  { slotIs 2 {} working with cq := { threshold := threshold, delay := 3 }, ev := {} }

/-- Two records signal by the threshold 1, by the depth 2, and not at all by the threshold 3, where the first of them starts the timer. -/
theorem witness_SegmentResetClearsTheWork :
    (WorkInv working ∧ working.windowOpen = true ∧ working.argNumber = 0 ∧ SomeSignals working [0, 1]) ∧
    (WorkInv (unsignalled 2) ∧ SomeSignals (unsignalled 2) [0, 1]) ∧
    (WorkInv (unsignalled 3) ∧ (unsignalled 3).windowOpen = true ∧ (unsignalled 3).argNumber = 0 ∧ ¬ SomeSignals (unsignalled 3) [0, 1] ∧
      (unsignalled 3).cq.queue = [] ∧ (unsignalled 3).flag .cqReady = false ∧ (unsignalled 3).cq.delay ≠ 0) :=
  ⟨⟨working_work, by decide⟩, ⟨by constructor <;> decide, by decide⟩, ⟨by constructor <;> decide, by decide⟩⟩

theorem witness_ReadmitForgetsThePresence :
    ((arg 47 (targetIs 47 there State.reset)).argNumber = 47 ∧ ((arg 47 (targetIs 47 there State.reset)).target 47).valid = true) ∧
    ((arg 47 State.reset).argNumber = 47 ∧ ((arg 47 State.reset).target 47).valid = false) ∧
    48 ≤ (arg 48 State.reset).argNumber := by decide

/-- Mailbox 3 with an inbound and an outbound state. -/
def box3 (i : InboundState) (o : OutboundState) : State :=
  arg 3 (boxIs 3 { inState := i, inLength := 1, outState := o, outLength := 1 } State.reset)

theorem witness_ReleaseInboundEmptiesTheBuffer :
    ((box3 .full .empty).windowOpen = true ∧ (box3 .full .empty).argNumber = 3 ∧ ((box3 .full .empty).box 3).inState = .full) ∧
    ((box3 .empty .empty).box 3).inState = .empty ∧ ((box3 .filling .empty).box 3).inState = .filling ∧
    4 ≤ (arg 4 State.reset).argNumber := by decide

/-- A context that holds a read on mailbox 3. -/
def holding : RxContext := { phase := .holding, entry := 1, mailbox := 3, direction := .read, holdLimit := 10, holdTimer := some 10000 }

/-- S0 holds a read on mailbox 3, with a word in CMDARG. -/
def held (v : Word) : State := arg v (segIs 0 (up {} holding) State.reset)

theorem witness_OutboundCommands_lengths :
    (arg 0x0003#16 State.reset).argLength = 0 ∧ 32 < (arg 0x2103#16 State.reset).argLength ∧
    ((arg 0x2003#16 (boxIs 3 { outState := .loaded, outLength := 1 } State.reset)).argLength = 32 ∧
      ((arg 0x2003#16 (boxIs 3 { outState := .loaded, outLength := 1 } State.reset)).box 3).outState ≠ .empty) := by decide

theorem witness_OutboundCommands_commits :
    ((arg 0x2003#16 State.reset).windowOpen = true ∧ (arg 0x2003#16 State.reset).argNumber = 3 ∧
      (arg 0x2003#16 State.reset).argLength = 32 ∧ ((arg 0x2003#16 State.reset).box 3).outState = .empty ∧ ¬ Held (arg 0x2003#16 State.reset) 3) ∧
    ((held 0x0103#16).argNumber = 3 ∧ (held 0x0103#16).argLength = 1 ∧ ((held 0x0103#16).box 3).outState = .empty ∧
      ((held 0x0103#16).ctx 0).phase = .holding ∧ ((held 0x0103#16).ctx 0).mailbox = 3 ∧
      ∀ h : Seg, ((held 0x0103#16).ctx h).phase = .holding → ((held 0x0103#16).ctx h).mailbox = 3 → h = 0) := by decide

theorem witness_OutboundCommands_cancels :
    ((box3 .empty .loaded).argNumber = 3 ∧ ((box3 .empty .loaded).box 3).outState = .loaded) ∧
    ((box3 .empty .sending).box 3).outState = .sending ∧
    (((box3 .empty .empty).box 3).outState = .empty ∧ ¬ Held (box3 .empty .empty) 3) ∧
    ((held 3).argNumber = 3 ∧ ((held 3).box 3).outState = .empty ∧ ((held 3).ctx 0).phase = .holding ∧ ((held 3).ctx 0).mailbox = 3 ∧
      ∀ h : Seg, ((held 3).ctx h).phase = .holding → ((held 3).ctx h).mailbox = 3 → h = 0) := by decide

/-! ### Witnesses: the table port and the registers -/

theorem witness_TableReads :
    (¬ SelectsNothing (select 0 47 3 State.reset) ∧ (select 0 47 3 State.reset).win.tselTable.toNat ≠ 2) ∧
    (¬ SelectsNothing (select 2 0 22 working) ∧ (select 2 0 22 working).cq.queue ≠ []) ∧
    (¬ SelectsNothing (select 2 0 0 State.reset) ∧ (select 2 0 0 State.reset).win.tselTable.toNat = 2 ∧
      (select 2 0 0 State.reset).cq.queue = [] ∧ (select 2 0 0 State.reset).windowOpen = true) := by decide

theorem witness_ReadOnlyWords :
    (SelectsReadOnly (select 0 47 2 State.reset) ∧ SelectsReadOnly (select 1 31 0 State.reset) ∧
      SelectsReadOnly (select 2 0 22 State.reset)) ∧
    (SelectsReadOnly (select 3 5 3 State.reset) ∧ SelectsReadOnly (select 5 3 16 State.reset) ∧
      SelectsReadOnly (select 6 3 0 State.reset)) := by
  refine ⟨⟨?_, ?_, ?_⟩, ?_, ?_, ?_⟩ <;> decide

theorem witness_WordsShowTheirFields :
    working.windowOpen = true ∧ WorkInv working ∧ ReferenceInv working ∧ MailboxInv working ∧ CountInv working ∧
      working.cq.queue = 2 :: [] ∧ (working.rstHeld = false ∧ inDeviceReset.rstHeld = false ∧ inDeviceReset.win.resetBusy = true) ∧
      inRst.rstHeld = true :=
  ⟨by decide, working_work, working_reference, working_mailbox, working_count, by decide⟩

/-- Entry 47 is selected for an identity write, with target 0 valid on S0 at 50h. -/
def naming : State := select 0 47 0 (targetIs 0 there State.reset)

/-- The clauses in turn: in use; address 07h; the identity of target 0; the word of an entry after RST#; segment 5, address 77h. -/
theorem witness_IdentityWritesAreChecked :
    (naming.windowOpen = true ∧ Selects naming 0 47 0) ∧
    (Selects (select 0 0 0 naming) 0 0 0 ∧ ((select 0 0 0 naming).target 0).refCount ≠ 0 ∧ (0x0000#16).getLsbD 15 ≠ (naming.target 0).valid) ∧
    ((naming.target 47).refCount = 0 ∧ (0x8007#16).getLsbD 15 = true ∧ ¬ 0x08 ≤ ((0x8007#16).extractLsb' 0 7).toNat) ∧
    ((0x8050#16).extractLsb' 8 3 = (naming.target 0).segment ∧ (0x8050#16).extractLsb' 0 7 = (naming.target 0).address) ∧
    ((0x0000#16).getLsbD 15 = (naming.target 47).valid ∧ (0x0000#16).extractLsb' 8 3 = (naming.target 47).segment ∧
      (0x0000#16).extractLsb' 0 7 = (naming.target 47).address) ∧
    ((0x8577#16).getLsbD 15 = true ∧ ((0x8577#16).extractLsb' 0 7).toNat = 0x77 ∧ ((0x8577#16).extractLsb' 8 3).toNat = 5) := by
  decide

theorem witness_SettingsWritesAreStored :
    Selects (select 0 47 1 State.reset) 0 (47 : TargetId).val 1 ∧ Selects (select 3 5 0 State.reset) 3 (5 : Seg).val 0 ∧
    Selects (select 3 5 2 State.reset) 3 (5 : Seg).val 2 ∧ Selects (select 4 3 1 State.reset) 4 (3 : EntryId).val 1 ∧
    Selects (select 6 3 1 State.reset) 6 (3 : BoxId).val 1 ∧ Selects (select 6 3 16 State.reset) 6 (3 : BoxId).val 16 ∧
    (select 6 3 16 State.reset).windowOpen = true := by decide

theorem witness_SlotFieldWritesNeedAStagedSlot :
    (Selects (select 1 31 1 full) 1 (31 : SlotId).val 1 ∧ ((select 1 31 1 full).slot 31).state = .staged) ∧
    (Selects (select 1 31 20 State.reset) 1 (31 : SlotId).val 20 ∧ ((select 1 31 20 State.reset).slot 31).state ≠ .staged) := by
  decide

theorem witness_OutOfRangeAccesses :
    SelectsNothing (select 7 0 0 State.reset) ∧ SelectsNothing (select 0 48 0 State.reset) ∧ SelectsNothing (select 0 47 4 State.reset) ∧
    SelectsNothing (select 2 1 0 State.reset) ∧ SelectsNothing (select 2 0 23 State.reset) ∧
    (select 7 0 0 State.reset).windowOpen = true := by decide

/-- One record waits, with a threshold, a delay, and CQ_READY set or clear. -/
def queued (threshold : BitVec 6) (delay : Byte) (flags : Word) : State :=
  { working with cq := { queue := [2], threshold := threshold, delay := delay }, ev := { flags := flags } }

theorem witness_EventWritesClearFlags :
    working.windowOpen = true ∧ (0x0000#16).getLsbD 0 = false ∧
    ((0xFFFF#16).getLsbD 0 = true ∧ (queued 1 20 1).flag .cqReady = true ∧ (queued 1 20 1).cq.threshold.toNat ≤ (queued 1 20 1).depth) ∧
    ((queued 2 20 1).flag .cqReady = true ∧ (queued 2 20 1).depth < (queued 2 20 1).cq.threshold.toNat ∧ 1 ≤ (queued 2 20 1).depth ∧
      (queued 2 20 1).cq.delay ≠ 0) ∧
    ((queued 2 0 1).flag .cqReady = true ∧ (queued 2 0 1).depth < (queued 2 0 1).cq.threshold.toNat ∧ (queued 2 0 1).cq.delay = 0) := by
  decide

theorem witness_QueueSettingsTakeEffect :
    ((queued 2 20 0).windowOpen = true ∧ (queued 2 20 0).flag .cqReady = false ∧
      (after (.cqcfgWrite 0x1401#16) (queued 2 20 0)).flag .cqReady = true) ∧
    ((0x1402#16).extractLsb' 8 8 ≠ 0 ∧ (queued 2 20 0).cq.timer = none ∧ (queued 2 20 0).cq.queue ≠ [] ∧
      (after (.cqcfgWrite 0x1402#16) (queued 2 20 0)).flag .cqReady = false) ∧
    (0x0002#16).extractLsb' 8 8 = 0 ∧
    ({ queued 2 20 0 with cq := { queue := [2], threshold := 2, delay := 20, timer := some 2000 } } : State).cq.timer.isSome = true := by
  decide

theorem witness_TimersOfTheQueueAndTheTimeBase :
    State.reset.live = true ∧ (working.updCq (fun q => { q with timer := some 2000 })).cq.timer.isSome = true ∧
      (working.updCq (fun q => { q with timer := some 2000 })).live = true ∧ State.reset.rstHeld = false ∧ inRst.rstHeld = true := by
  decide

theorem witness_TimeBaseReadsTakeASnapshot :
    State.reset.windowOpen = true ∧ inDeviceReset.win.resetBusy = true ∧
      (∃ t : State, exec .timeBaseCount State.reset = .next t) ∧ ∃ t : State, exec .rstEnd inRst = .next t :=
  ⟨by decide, by decide, ⟨_, rfl⟩, ⟨_, rfl⟩⟩

theorem witness_EnablesAndTheInterruptLine : State.reset.windowOpen = true := by decide

theorem witness_UndefinedWordsSetWindowError : State.reset.windowOpen = true ∧ inDeviceReset.win.resetBusy = true := by decide

theorem witness_PlainRegistersStoreTheirFields :
    State.reset.windowOpen = true ∧ (PlainRegister.segStat 5) ≠ .tsel ∧ (PlainRegister.segStat 5) ≠ .tidx ∧
      (PlainRegister.segStat 5) ≠ .cmdArg ∧ (0x2C, Register.segStat 5) ∈ registerOffsets ∧ (0x2E, .registerWrite .mbStat 7) ∈ writeRows 7 ∧
      (0x5A#8, .deviceReset) ∈ commandRows ∧ (0xFF5A#16).extractLsb' 0 8 = 0x5A#8 ∧ (0x0100#16).extractLsb' 0 8 ∉ commandCodes := by decide

/-! ### Witnesses: power and dispatch -/

/-- S5 in a segment state with a recorded level of SPG5, a settle timer and a glitch timer. -/
def powered (st : SegState) (spg : Bool) (settle glitch : Timer) : State :=
  segIs 5 { state := st, downMode := .flushing, spg := spg, settleTimer := settle, glitchTimer := glitch } State.reset

theorem witness_PowerQualifier_asserted :
    (((powered .dark false none none).seg 5).spg = false ∧ (powered .dark false none none).live = true ∧
      ((powered .dark false none none).seg 5).state = .dark) ∧
    (((powered .faulted false none (some 2000)).seg 5).spg = false ∧ ((powered .faulted false none (some 2000)).seg 5).state = .faulted ∧
      ((powered .faulted false none (some 2000)).seg 5).glitchTimer.isSome = true) ∧
    (((powered .offline false none none).seg 5).spg = false ∧ ((powered .offline false none none).seg 5).state = .offline) := by decide

theorem witness_PowerQualifier_deasserted :
    (((powered .settling true (some 20000) none).seg 5).spg = true ∧ (powered .settling true (some 20000) none).live = true ∧
      ((powered .settling true (some 20000) none).seg 5).state = .settling ∧
      ((powered .settling true (some 20000) none).seg 5).settleTimer.isSome = true) ∧
    (((powered .up true none none).seg 5).spg = true ∧ ((powered .up true none none).seg 5).state = .up ∧
      ((powered .up true none none).seg 5).config.glitchWindow ≠ 0) ∧
    (((powered .offline true none none).seg 5).spg = true ∧ ((powered .offline true none none).seg 5).state = .offline) := by decide

theorem witness_LossOfPowerDepartsToDark :
    ((powered .recovering false none (some 2000)).live = true ∧ ((powered .recovering false none (some 2000)).seg 5).state = .recovering ∧
      ((powered .recovering false none (some 2000)).seg 5).glitchTimer.isSome = true ∧
      ((powered .recovering false none (some 2000)).seg 5).spg = false) ∧
    ((segIs 5 { up {} with config := { glitchWindow := 0 } } State.reset).live = true ∧
      ((segIs 5 { up {} with config := { glitchWindow := 0 } } State.reset).seg 5).state = .up ∧
      ((segIs 5 { up {} with config := { glitchWindow := 0 } } State.reset).seg 5).config.glitchWindow = 0 ∧
      ((segIs 5 { up {} with config := { glitchWindow := 0 } } State.reset).seg 5).spg = true) := by decide

/-- Slot 0, a descriptor x, is the head of the list of S0, which is the segment y; target 0 has a presence. -/
def headed (x : Slot) (y : Segment) (p : Presence) : State :=
  segIs 0 { y with list := [0] } (targetIs 0 { there with presence := p } (slotIs 0 { x with state := .pending } State.reset))

theorem witness_HeadsCompleteOrWait :
    ((headed write2 (up {}) .present).live = true ∧ ((headed write2 (up {}) .present).seg 0).list = 0 :: [] ∧
      ((headed write2 (up {}) .present).engine 0).active = none) ∧
    HasMark ((headed { write2 with mark := .flushed } {} .present).slot 0) .flushed ∧
    (((headed write2 (up {}) .quarantined).slot 0).mark = .none ∧
      ((headed write2 (up {}) .quarantined).entryOf 0).presence = .quarantined ∧
      ¬ HasKind ((headed write2 (up {}) .quarantined).slot 0) .probe) ∧
    (((headed write2 {} .present).entryOf 0).presence ≠ .quarantined ∧ downAndFlushing ((headed write2 {} .present).seg 0)) ∧
    (¬ downAndFlushing ((headed write2 { downMode := .holding } .present).seg 0) ∧
      ((headed write2 { downMode := .holding } .present).seg 0).state ≠ .up) := by decide

theorem witness_AttemptsBegin_heads :
    (headed write2 (up {}) .unknown).live = true ∧ ((headed write2 (up {}) .unknown).seg 0).list = 0 :: [] ∧
      ((headed write2 (up {}) .unknown).engine 0).active = none ∧ ((headed write2 (up {}) .unknown).slot 0).mark = .none ∧
      (headed write2 (up {}) .unknown).targetIndex 0 = some 0 ∧ ((headed write2 (up {}) .unknown).target 0).presence ≠ .quarantined ∧
      ((headed write2 (up {}) .unknown).seg 0).state = .up ∧ (headed write2 (up {}) .unknown).win.dispatchHold = false ∧
      ((headed write2 (up {}) .unknown).engine 0).state = .idle ∧
      ((headed write2 (up {}) .unknown).slot 0).failures ≤ ((headed write2 (up {}) .unknown).target 0).retryLimit.toNat ∧
      ServesNothing (headed write2 (up {}) .unknown) 0 := by decide

/-- A known transfer of another controller keeps the bus busy while the Responder serves it. -/
theorem witness_AttemptsBegin_busy :
    ((busy write2 backing { phase := .writing }).updSeg 0 (fun x => { x with known := true })).live = true ∧
      (((busy write2 backing { phase := .writing }).updSeg 0 (fun x => { x with known := true })).seg 0).known = true ∧
      ¬ ServesNothing ((busy write2 backing { phase := .writing }).updSeg 0 (fun x => { x with known := true })) 0 := by decide

theorem witness_AttemptsBegin_waits :
    ((busy write2 backing).live = true ∧ ((busy write2 backing).engine 0).state = .backoff ∧
      ((busy write2 backing).engine 0).backoffTimer.isSome = true ∧ ((busy write2 backing).engine 0).active = some 0 ∧
      ((busy write2 backing).seg 0).state = .up ∧ ((busy write2 backing).slot 0).mark = .none ∧
      (busy write2 backing).targetIndex 0 = some 0 ∧ ServesNothing (busy write2 backing) 0) ∧
    (((busy poll polling).engine 0).state = .pollWait ∧ ((busy poll polling).engine 0).pollTimer.isSome = true ∧
      ((busy poll polling).slot 0).failures ≤ ((busy poll polling).target 0).retryLimit.toNat) := by decide

/-- A slot with 3 failures, one more than the retry limit of target 0. -/
theorem witness_AttemptsNotBegun :
    (HasMark ((busy { write2 with mark := .aborted } backing).slot 0) .aborted ∧
      (busy { write2 with mark := .aborted } backing).targetIndex 0 = some 0) ∧
    (((busy { write2 with failures := 3 } backing).slot 0).mark = .none ∧
      ((busy { write2 with failures := 3 } backing).target 0).retryLimit.toNat < ((busy { write2 with failures := 3 } backing).slot 0).failures ∧
      ((busy { write2 with failures := 3 } backing).engine 0).lastFailure = some .nackAddress ∧
      ((busy { write2 with failures := 3 } backing).engine 0).state = .backoff ∧
      ((busy { write2 with failures := 3 } backing).engine 0).backoffTimer.isSome = true ∧
      ((busy { write2 with failures := 3 } backing).engine 0).active = some 0) := by decide

/-! ### Witnesses: the engine -/

/-- The engine in WAIT_FREE in a busy spell. -/
def spell : Engine := { state := .waitFree, pos := .address, address := 0x50#7, busyTimer := some 50000 }

/-- As in a busy spell, with the data line low. -/
def stuckLow : State := (busy write2 spell).updSeg 0 (fun x => { x with sdaHigh := false })

/-- A bus with both lines high, and one with the data line low. -/
theorem witness_WaitFreeEnds :
    (busy write2 spell).live = true ∧ ((busy write2 spell).engine 0).state = .waitFree ∧ ((busy write2 spell).seg 0).state = .up ∧
      LinesFree ((busy write2 spell).seg 0) ∧ ¬ LinesFree (stuckLow.seg 0) ∧ ServesNothing (busy write2 spell) 0 ∧
      ((busy write2 spell).engine 0).busyTimer.isSome = true ∧ ((busy write2 spell).engine 0).active = some 0 ∧
      (busy write2 spell).targetIndex 0 = some 0 := by decide

/-- One slot of each kind; the BLOCK_READ has write count 0. -/
theorem witness_SequencesOfTheKinds :
    (HasKind write2 .write ∧ LengthRule .write 2 0) ∧ (HasKind { kind := 2, readCount := 32 } .read ∧ LengthRule .read 0 32) ∧
    (HasKind { kind := 3, writeCount := 1, readCount := 1 } .writeRead ∧ LengthRule .writeRead 1 1) ∧
    (HasKind { kind := 4 } .probe ∧ LengthRule .probe 0 0) ∧ (HasKind { kind := 5 } .blockRead ∧ LengthRule .blockRead 0 0) ∧
    (HasKind poll .poll ∧ LengthRule .poll 1 0) ∧
    (((busy write2 (at_ (.writeByte 1))).engine 0).active = some 0 ∧ HasKind ((busy write2 (at_ (.writeByte 1))).slot 0) .write ∧
      ((busy write2 (at_ (.writeByte 1))).engine 0).pos = .writeByte 1) ∧ ({ kind := 5, readData := [2] } : Slot).readData = 2 :: [] := by decide

theorem witness_AddressBytes :
    ((busy write2 (at_ .address)).live = true ∧ HasKind ((busy write2 (at_ .address)).slot 0) .write ∧
      LengthRule .write ((busy write2 (at_ .address)).slot 0).writeCount.toNat ((busy write2 (at_ .address)).slot 0).readCount.toNat ∧
      (busy write2 (at_ .address)).targetIndex 0 = some 0 ∧ Sending (busy write2 (at_ .address)) 0 0 .address ∧
      ((busy write2 (at_ .address)).slot 0).mark = .none) ∧
    (HasKind ((busy poll (at_ .secondAddress)).slot 0) .poll ∧ Sending (busy poll (at_ .secondAddress)) 0 0 .secondAddress) := by decide

/-- The last write byte of a POLL is followed by the repeated start; the first byte of a count of 2 is not the last. -/
theorem witness_DataBytes :
    (Sending (busy poll (at_ (.writeByte 0))) 0 0 (.writeByte 0) ∧
      ((busy poll (at_ (.writeByte 0))).slot 0).stepAfterWrites 1 = .secondAddress ∧
      ((busy poll (at_ (.writeByte 0))).slot 0).mark = .none ∧ ServesNothing (busy poll (at_ (.writeByte 0))) 0) ∧
    (Sending (busy poll (at_ (.readByte 0))) 0 0 (.readByte 0) ∧ ((busy poll (at_ (.readByte 0))).slot 0).lastRead 0 7 = true) ∧
    (Sending (busy { kind := 5 } (at_ (.readByte 0))) 0 0 (.readByte 0) ∧
      ((busy { kind := 5 } (at_ (.readByte 0))).slot 0).lastRead 0 31 = false ∧
      ((busy { kind := 5 } (at_ (.readByte 0))).slot 0).mark = .none ∧ (busy { kind := 5 } (at_ (.readByte 0))).live = true) := by decide

theorem witness_MarksEndTheTransfer :
    (HasMark ((busy { write2 with mark := .aborted } (at_ (.writeByte 0))).slot 0) .aborted ∧
      Sending (busy { write2 with mark := .aborted } (at_ (.writeByte 0))) 0 0 (.writeByte 0) ∧
      ((busy { write2 with mark := .aborted } (at_ (.writeByte 0))).slot 0).stepAfterWrites 1 ≠ .closingStop ∧
      (busy { write2 with mark := .aborted } (at_ (.writeByte 0))).targetIndex 0 = some 0) ∧
    (HasMark ((busy { kind := 5, mark := .flushed } (at_ (.readByte 0))).slot 0) .flushed ∧
      Sending (busy { kind := 5, mark := .flushed } (at_ (.readByte 0))) 0 0 (.readByte 0) ∧
      ((busy { kind := 5, mark := .flushed } (at_ (.readByte 0))).slot 0).lastRead 0 31 = false) ∧
    (Sending (busy { write2 with mark := .aborted } (at_ .address)) 0 0 .address ∧
      ((busy { write2 with mark := .aborted } (at_ .address)).slot 0).stepAfterAddress ≠ .closingStop) := by decide

/-- A POLL whose read did not match, at its first and at its last read. -/
theorem witness_ClosingStopsOfSuccess :
    ((busy { poll with readData := [0] } (at_ .closingStop)).live = true ∧
      Sending (busy { poll with readData := [0] } (at_ .closingStop)) 0 0 .closingStop ∧
      ((busy { poll with readData := [0] } (at_ .closingStop)).engine 0).met = none ∧
      (busy { poll with readData := [0] } (at_ .closingStop)).targetIndex 0 = some 0 ∧
      ServesNothing (busy { poll with readData := [0] } (at_ .closingStop)) 0) ∧
    (HasKind { poll with readData := [0] } .poll ∧ ¬ (0#8 &&& poll.pollMask = poll.pollMatch) ∧ 0 + 1 < poll.pollLimit.toNat ∧
      ¬ 1 + 1 < poll.pollLimit.toNat ∧ poll.mark = .none) ∧
    (¬ HasKind write2 .poll ∧ Sending (busy write2 (at_ .closingStop)) 0 0 .closingStop) ∧
    HasMark ((busy { poll with readData := [0], mark := .aborted } (at_ .closingStop)).slot 0) .aborted := by decide

/-- The engine at a stop of recovery after some pulses. -/
def recoveringEngine (pulses : Nat) (stop : Bool) : Engine := { state := .recovery, pulses := pulses, recoveryStop := stop }

/-- S0 recovers with slot 0 active. -/
def recovering (pulses : Nat) (stop : Bool) : State :=
  (busy write2 (recoveringEngine pulses stop)).updSeg 0 (fun x => { x with state := .recovering })

/-- A WRITE of two bytes, 01h and 00h. -/
def write10 : Slot := { write2 with writeList := setByte (Vector.replicate 32 0) 0 1 }

/-- The cases of the evaluation: a LENGTH_ERROR; a count that meets the threshold 8; a slot past its retry limit 2; a marked and an unmarked
slot within it. -/
theorem witness_FailuresAreEvaluated :
    (Sending (busy write2 { at_ .closingStop with met := some .nackData }) 0 0 .closingStop ∧
      ((busy write2 { at_ .closingStop with met := some .nackData }).engine 0).met = some .nackData ∧
      ServesNothing (busy write2 { at_ .closingStop with met := some .nackData }) 0) ∧
    (Sending (busy write2 { at_ .closingStop with nackOut := true }) 0 0 .closingStop ∧
      ((busy write2 { at_ .closingStop with nackOut := true }).engine 0).nackOut = true) ∧
    ((Sending (busy write10 (at_ .address)) 0 0 .address ∧ ((busy write10 (at_ .address)).engine 0).address ≠ 0) ∧
      (Sending (busy write10 (at_ (.writeByte 0))) 0 0 (.writeByte 0) ∧ byteAt write10.writeList 0 ≠ 0) ∧
      (Sending (busy write10 (at_ (.writeByte 1))) 0 0 (.writeByte 1) ∧ byteAt write10.writeList 1 = 0)) ∧
    (((recovering 3 true).engine 0).state = .recovery ∧ ((recovering 3 true).engine 0).recoveryStop = true ∧
      ((recovering 3 true).engine 0).active = some 0 ∧ (recovering 3 true).live = true ∧ (recovering 3 true).targetIndex 0 = some 0) := by
  decide

theorem witness_Evaluates_cases :
    MeetsThreshold { there with failureCount := 7 } .nackData ∧ ¬ MeetsThreshold { there with failureCount := 6 } .nackData ∧
    ¬ MeetsThreshold { there with failureCount := 15 } .arbLost ∧ there.retryLimit.toNat < 2 + 1 ∧ 1 + 1 ≤ there.retryLimit.toNat ∧
    HasMark { write2 with mark := .flushed } .flushed := by decide

theorem witness_RecoveryIsEntered :
    (stuckLow.live = true ∧ (stuckLow.seg 0).state = .up ∧ (stuckLow.engine 0).state = .waitFree ∧ LinesStuck (stuckLow.seg 0) ∧
      ¬ LinesStuck ((busy write2 spell).seg 0)) ∧
    (Sending (busy write2 (at_ .closingStop)) 0 0 .closingStop ∧ Sending (busy poll (at_ .secondAddress)) 0 0 .secondAddress) ∧
    (((segIs 0 (up { at_ .closingStop with closing := .mark }) State.reset).engine 0).state = .transfer ∧
      ((segIs 0 (up { at_ .closingStop with closing := .mark }) State.reset).engine 0).closing = .mark) := by decide

theorem witness_SlotlessClosesEnd :
    ((segIs 0 (up { at_ .closingStop with closing := .mark, nackOut := true }) State.reset).live = true ∧
      ((segIs 0 (up { at_ .closingStop with closing := .mark, nackOut := true }) State.reset).engine 0).state = .transfer ∧
      ((segIs 0 (up { at_ .closingStop with closing := .mark, nackOut := true }) State.reset).engine 0).nackOut = true ∧
      ((segIs 0 (up { at_ .closingStop with closing := .mark, nackOut := true }) State.reset).engine 0).active = none ∧
      ServesNothing (segIs 0 (up { at_ .closingStop with closing := .mark, nackOut := true }) State.reset) 0) ∧
    (((after .offline (arg 0 working)).engine 0).state = .transfer ∧ ((after .offline (arg 0 working)).engine 0).closing = .offline ∧
      (after .offline (arg 0 working)).live = true) := by decide

/-- The engine at a write byte, whose clock is held low. -/
def stretched : State := busy write2 { at_ (.writeByte 0) with stretchTimer := some 30000 }

theorem witness_HeldClocksAndPulses :
    (stretched.live = true ∧ (stretched.engine 0).state = .transfer ∧ (stretched.engine 0).closing = .none ∧
      (stretched.engine 0).stretchTimer.isSome = true) ∧
    ((busy write2 (at_ (.writeByte 0))).engine 0).stretchTimer = none ∧
    ((after (.stretchTimerExpiry 0) stretched).engine 0).state = .releaseWait ∧
    (((recovering 7 false).engine 0).recoveryStop = false ∧ ((recovering 7 false).engine 0).pulses < 8) ∧
    (((recovering 8 true).engine 0).recoveryStop = true ∧ ((recovering 8 true).engine 0).pulses < 9) ∧
    ((segIs 0 { up (recoveringEngine 9 true) with state := .recovering } State.reset).engine 0).active = none := by decide

theorem witness_FaultsDepart :
    (((recovering 8 false).engine 0).state = .recovery ∧ ((recovering 8 false).engine 0).recoveryStop = false ∧
      8 ≤ ((recovering 8 false).engine 0).pulses ∧ (recovering 8 false).live = true) ∧
    (((recovering 9 true).engine 0).recoveryStop = true ∧ 9 ≤ ((recovering 9 true).engine 0).pulses) ∧
    (((busy write2 { state := .releaseWait, releaseTimer := some 50000 }).engine 0).state = .releaseWait ∧
      ((busy write2 { state := .releaseWait, releaseTimer := some 50000 }).engine 0).releaseTimer.isSome = true) ∧
    ((recovering 3 false).engine 0).releaseTimer = none := by decide

theorem witness_LineChanges :
    (((busy write2 spell).seg 0).known = false ∧ ¬ HoldsBus ((busy write2 spell).engine 0)) ∧
    (((after (.remoteStart 0) (busy write2 spell)).seg 0).known = true ∧
      ¬ HoldsBus ((after (.remoteStart 0) (busy write2 spell)).engine 0) ∧ ((busy write2 spell).ctx 0).phase ≠ .holding) ∧
    (((held 0).ctx 0).phase = .holding ∧ ((after (.stretchTimerExpiry 0) stretched).engine 0).state = .releaseWait) ∧
    ((busy write2 spell).live = true ∧ ((busy write2 spell).seg 0).state = .up ∧ ((busy write2 spell).engine 0).state ≠ .transfer ∧
      ((busy write2 spell).seg 0).sclHigh = true ∧ ((busy write2 spell).seg 0).sdaHigh ≠ false ∧ (stuckLow.seg 0).sdaHigh ≠ true) ∧
    ((State.reset.seg 5).known = false ∧ (State.reset.seg 5).state ≠ .up ∧ (State.reset.seg 5).state ≠ .recovering) ∧
    (((busy write2 (at_ (.readByte 0))).engine 0).state = .transfer ∧ ((busy write2 (at_ (.readByte 0))).engine 0).closing = .none) ∧
    (((after .offline (arg 0 working)).engine 0).state = .transfer ∧ ((after .offline (arg 0 working)).engine 0).closing = .offline) ∧
    ((recovering 3 false).engine 0).state = .recovery := by
  decide

/-! ### Witnesses: remote transfers -/

/-- S5 is UP with its context in c, the engine IDLE; match entry 3 answers 28h to 2Bh on S5 for mailbox 3. -/
def remote (c : RxContext) : State :=
  segIs 5 (up {} c) (entryIs 3 { enabled := true, segment := 5, address := 0x28#7, mask := 0x7C#7, mailbox := 3 } State.reset)

theorem witness_RemoteStartsAndStops :
    ((remote { phase := .writing, mailbox := 3 }).live = true ∧ Serving (remote { phase := .writing, mailbox := 3 }) 5 .writing ∧
      Phase.writing ≠ .holding ∧ ((remote { phase := .writing, mailbox := 3 }).engine 5).state ≠ .recovery) ∧
    ((recovering 3 false).live = true ∧ ((recovering 3 false).seg 0).state = .recovering ∧
      ((recovering 3 false).engine 0).state = .recovery ∧ ((recovering 3 false).ctx 0).phase ≠ .holding) ∧
    (stretched.engine 0).state = .transfer ∧ ((after (.stretchTimerExpiry 0) stretched).engine 0).state = .releaseWait ∧
    ((held 0).ctx 0).phase = .holding := by decide

/-- 2Bh for a write and for a read match entry 3 first, and 2Ch matches none. -/
theorem witness_RemoteAddresses :
    (remote { phase := .address }).live = true ∧ Serving (remote { phase := .address }) 5 .address ∧
    (FirstMatch (remote { phase := .address }) 3 5 ((0x56#8).extractLsb' 1 7) ∧ (0x56#8).getLsbD 0 = false ∧
      ((remote { phase := .address }).box 3).inState = .empty) ∧
    (FirstMatch (remote { phase := .address }) 3 5 ((0x57#8).extractLsb' 1 7) ∧ (0x57#8).getLsbD 0 = true ∧
      ((remote { phase := .address }).box 3).outState = .empty ∧ ¬ Held (remote { phase := .address }) 3 ∧
      ((remote { phase := .address }).entry 3).readHold = false) ∧
    ∀ e : EntryId, ¬ Matches (remote { phase := .address }) e 5 ((0x58#8).extractLsb' 1 7) := by decide

/-- The other states of mailbox 3, and an entry with read-hold. -/
theorem witness_RemoteAddresses_mailboxes :
    (((boxIs 3 { inState := .full, inLength := 1 } (remote { phase := .address })).box 3).inState ≠ .empty ∧
      FirstMatch (boxIs 3 { inState := .full, inLength := 1 } (remote { phase := .address })) 3 5 0x28#7) ∧
    (((boxIs 3 { outState := .loaded, outLength := 1 } (remote { phase := .address })).box 3).outState = .loaded ∧
      FirstMatch (boxIs 3 { outState := .loaded, outLength := 1 } (remote { phase := .address })) 3 5 0x28#7) ∧
    (((entryIs 3 { enabled := true, segment := 5, address := 0x77#7, mailbox := 3, readHold := true } (remote { phase := .address })).entry 3).readHold =
        true ∧
      FirstMatch (entryIs 3 { enabled := true, segment := 5, address := 0x77#7, mailbox := 3, readHold := true } (remote { phase := .address }))
        3 5 0x77#7) := by decide

/-- Mailbox 3 with 31 and with 32 bytes stored; a buffer of 1 byte before and after it is sent. -/
theorem witness_RemoteDataBytes :
    (Serving (boxIs 3 { inState := .filling, inLength := 31 } (remote { phase := .writing, mailbox := 3 })) 5 .writing ∧
      ((boxIs 3 { inState := .filling, inLength := 31 } (remote { phase := .writing, mailbox := 3 })).box 3).inLength < 32) ∧
    32 ≤ ((boxIs 3 { inState := .filling, inLength := 32 } (remote { phase := .writing, mailbox := 3 })).box 3).inLength ∧
    (Serving (boxIs 3 { outState := .sending, outLength := 1 } (remote { phase := .reading, mailbox := 3 })) 5 .reading ∧
      ((remote { phase := .reading, mailbox := 3 }).ctx 5).stopped = false ∧
      ((remote { phase := .reading, mailbox := 3 }).ctx 5).count < ({ outLength := 1 } : Mailbox).outLength) ∧
    ({ outLength := 1 } : Mailbox).outLength ≤ ((remote { phase := .reading, mailbox := 3, count := 1 }).ctx 5).count ∧
    ((remote holding).live = true ∧ ((remote holding).ctx 5).phase = .holding ∧ ((remote holding).ctx 5).holdTimer.isSome = true) := by decide

/-! ### Well-formed commands -/

theorem test_unknown_code_is_no_command : Instr.wellFormed (.unknownCommand 0x03#8) = false := by decide

theorem test_unknown_code_well_formed : Instr.wellFormed (.unknownCommand 0x07#8) = true := by decide

theorem test_no_word_spells_a_command : decodeTableWord 32 0x12345678 = none := rfl

/-! ### Commands -/

/-- ALLOCATE after RST# takes slot 0 and leaves 31 FREE slots (R33, R41). -/
theorem test_allocate :
    (after .allocate State.reset).readRegister .cmdRes = 0x0000#16 ∧ (after .allocate State.reset).readRegister .poolStat = 0x001F#16 ∧
      (after .allocate State.reset).tableValue (.slotStatus 0) = 0x0001#16 := by decide

/-- With no FREE slot CMDRES reads 0300h and CMD_ERROR, bit 13, is set (R33). -/
theorem test_allocate_no_slot :
    (after .allocate full).readRegister .cmdRes = 0x0300#16 ∧ (after .allocate full).readRegister .evt = 0x2000#16 := by decide

/-- The value of a refused DISCARD is the slot number (R34). -/
theorem test_discard_not_staged : (after .discard (arg 9 State.reset)).readRegister .cmdRes = 0x0409#16 := by decide

/-- Section 2.11: POST (5) to S4, OFFLINE and FLUSHING. -/
def section211 : State :=
  arg 5 (segIs 4 { state := .offline, downMode := .flushing }
    (targetIs 20 { valid := true, segment := 4, address := 0x20#7 } (slotIs 5 { state := .staged, kind := 4, target := 20 } State.reset)))

theorem test_post_to_a_down_segment :
    ((after .post section211).slot 5).outcome = .completed .segmentDown ∧ ((after .post section211).slot 5).state = .done ∧
      ((after .post section211).target 20).refCount = 0 ∧ ((after .post section211).target 20).lastFinal = some .segmentDown ∧
      (after .post section211).readRegister .cmdRes = 0x0005#16 ∧ (after .post section211).readRegister .cqStat = 0x0501#16 := by decide

/-- BAD_LENGTH, result 07h, outcome 13h: a PROBE with write count 1 (R36). -/
theorem test_post_bad_length :
    (after .post (posting { kind := 4, writeCount := 1 })).readRegister .cmdRes = 0x0700#16 ∧
      (after .post (posting { kind := 4, writeCount := 1 })).tableValue (.slotStatus 0) = 0x9801#16 := by decide

/-- Section 11.5: ABORT (20) in POLL_WAIT completes the slot in the event; polls used and read data stay. -/
theorem test_abort_in_poll_wait :
    ((after .abort (busy { poll with pollsUsed := 3, bytesAccepted := 1, readData := [9] } polling)).slot 0).outcome = .completed .aborted ∧
      ((after .abort (busy { poll with pollsUsed := 3, bytesAccepted := 1, readData := [9] } polling)).slot 0).pollsUsed = 3 ∧
      ((after .abort (busy { poll with pollsUsed := 3, bytesAccepted := 1, readData := [9] } polling)).engine 0).state = .idle := by decide

/-- Section 6.7: with threshold 3 and delay 2 ms, two RETIREs leave one record, and the clear then starts the timer. -/
theorem test_retire_and_clear :
    (after (.evtWrite 1) (queued 3 20 1)).cq.timer = some 2000 ∧ (after .retire (queued 3 20 0)).cq.queue = [] ∧
      (after .retire (queued 3 20 0)).readRegister .cmdRes = 0x0002#16 := by decide

theorem test_retire_empty : (after .retire State.reset).readRegister .cmdRes = 0x0A00#16 := by decide

/-- FLUSH_SEGMENT marks the active slot and the listed one and returns 2 (R55). -/
theorem test_flush_segment :
    (after .flushSegment working).readRegister .cmdRes = 0x0002#16 ∧ ((after .flushSegment working).slot 1).mark = .flushed ∧
      ((after .flushSegment working).slot 0).state = .active := by decide

/-- Of an engine in BACKOFF the active slot ends in the event, and both slots count (R55, R80). -/
theorem test_flush_segment_waiting :
    (after .flushSegment waiting).readRegister .cmdRes = 0x0002#16 ∧ ((after .flushSegment waiting).slot 0).outcome = .completed .flushed ∧
      (after .flushSegment waiting).cq.queue = [2, 0] := by decide

/-- OFFLINE (0, HOLD) of an engine on the wire: SEGMENT_DOWN, and one stop in TRANSFER (R88). -/
theorem test_offline :
    (after .offline (arg 0 working)).readRegister (.segStat 0) = 0x1050#16 ∧
      ((after .offline (arg 0 working)).slot 0).outcome = .completed .segmentDown := by decide

theorem test_online_of_a_segment_in_service : (after .online working).readRegister .cmdRes = 0x0200#16 := by decide

/-- Section 11.1 at 1 ms: SEGMENT_RESET (0) with loss policy HOLD and SPG0 asserted gives SETTLING, HOLDING, due in 20 ms. -/
theorem test_segment_reset :
    ((after .segmentReset (segIs 0 { state := .settling, spg := true, settleTimer := some 19000, config := { lossPolicy := .hold } } State.reset)).readRegister
        (.segStat 0) = 0x1002#16) ∧
      ((after .segmentReset (segIs 0 { state := .settling, spg := true, settleTimer := some 19000, config := { lossPolicy := .hold } } State.reset)).seg
        0).settleTimer = some 20000 := by decide

/-- Both records of a SEGMENT_RESET are appended: the depth 2 sets CQ_READY at the second, and else the first starts 300 µs (R121, R122). -/
theorem test_segment_reset_appends :
    ((after .segmentReset (unsignalled 2)).flag .cqReady = true ∧ (after .segmentReset (unsignalled 2)).cq.timer = none) ∧
      (after .segmentReset (unsignalled 3)).cq.timer = some 300 := by decide

/-- SEGMENT_RESET (0) completes slot 0 and then slot 1 behind record 2, and returns 2 (R57, R144). -/
theorem test_segment_reset_order :
    (after .segmentReset working).cq.queue = [2, 0, 1] ∧ (after .segmentReset working).readRegister .cmdRes = 0x0002#16 := by decide

theorem test_readmit :
    ((after .readmit (arg 47 (targetIs 47 { there with presence := .quarantined, failureCount := 9 } State.reset))).target 47).presence = .unknown ∧
      ((after .readmit (arg 47 (targetIs 47 { there with presence := .quarantined, failureCount := 9 } State.reset))).target 47).failureCount =
        0 := by decide

theorem test_release_inbound : ((after .releaseInbound (box3 .full .empty)).box 3).inState = .empty := by decide

/-- Section 11.6 at 3 ms: COMMIT_OUTBOUND (3, 3) serves the held read. -/
theorem test_commit_serves_a_held_read :
    ((after .commitOutbound (held 0x0303#16)).box 3).outState = .sending ∧ ((after .commitOutbound (held 0x0303#16)).box 3).outLength = 3 ∧
      ((after .commitOutbound (held 0x0303#16)).ctx 0).phase = .reading := by decide

theorem test_cancel_ends_a_held_read :
    (after .cancelOutbound (held 3)).nextSent 0 = 0xFF#8 ∧ (after .cancelOutbound (held 3)).readRegister .evt = 0x0400#16 := by decide

/-- DEVICE_RESET: CTL shows reset-busy and every other register 0; its end keeps CMDARG and shows DONE (R187, R188). -/
theorem test_device_reset :
    inDeviceReset.readRegister .ctl = 0x8000#16 ∧ inDeviceReset.readRegister .poolStat = 0 ∧
      (after .deviceResetEnd inDeviceReset).readRegister .cmd = 0x005A#16 ∧
      (after .deviceResetEnd inDeviceReset).readRegister .poolStat = 0x0020#16 := by decide

theorem test_unknown_command : (after (.unknownCommand 0x07#8) State.reset).readRegister .cmdRes = 0x0100#16 := by decide

/-! ### Table and register accesses -/

/-- After RST# the entry words of S5 and of match entry 3 (section 10.4). -/
theorem test_tdata_read :
    (after .tdataRead (select 3 5 1 State.reset)).win.readData = 0x321E#16 ∧ (after .tdataRead (select 4 3 1 State.reset)).win.readData = 0x0A7F#16 := by
  decide

/-- Address 78h is refused with BAD_ADDRESS, code 6; a second entry at S0, 50h with DUPLICATE, code 7 (R4). -/
theorem test_identity_write :
    (after (.targetIdentityWrite 0x8078#16) naming).readRegister .tStat = 6 ∧ (after (.targetIdentityWrite 0x8050#16) naming).readRegister .tStat = 7 ∧
      (after (.targetIdentityWrite 0x8150#16) naming).tableValue (.identity 47) = 0x8150#16 := by decide

theorem test_policy_write :
    (after (.targetPolicyWrite 0xFFFF#16) (select 0 47 1 State.reset)).tableValue (.policy 47) = 0x01F7#16 := by decide

/-- A write list word, low byte first; a slot that is not STAGED answers NOT_STAGED, code 3 (R20, R21). -/
theorem test_slot_field_write :
    byteAt ((after (.slotFieldWrite 0x1234#16) (select 1 31 20 full)).slot 31).writeList 31 = 0x12#8 ∧
      byteAt ((after (.slotFieldWrite 0x1234#16) (select 1 31 20 full)).slot 31).writeList 30 = 0x34#8 ∧
      (after (.slotFieldWrite 1) (select 1 31 1 State.reset)).readRegister .tStat = 3 := by decide

/-- A settle time of 0 is stored as 1 (R146). -/
theorem test_segment_config_write :
    (after (.segmentConfigWrite 0x1F00#16) (select 3 5 0 State.reset)).tableValue (.config 5 0) = 0x1F01#16 := by decide

theorem test_responder_entry_write :
    (after (.responderEntryWrite 0xF577#16) (select 4 3 0 State.reset)).tableValue (.responder 3 0) = 0xF577#16 ∧
      (after (.responderEntryWrite 0x00FF#16) (select 4 3 1 State.reset)).tableValue (.responder 3 1) = 0x017F#16 := by decide

theorem test_staging_bytes_write :
    (after (.stagingBytesWrite 0xBEEF#16) (select 6 3 16 State.reset)).tableValue (.staging 3 16) = 0xBEEF#16 := by decide

theorem test_read_only_table_write :
    (after (.readOnlyTableWrite 1) (select 5 3 16 State.reset)).readRegister .tStat = 2 ∧
      (after (.readOnlyTableWrite 1) (select 5 3 16 State.reset)).readRegister .evt = 0x8000#16 := by decide

theorem test_out_of_range :
    (after (.tdataWriteOutOfRange 1) (select 2 0 23 State.reset)).readRegister .tStat = 1 ∧
      (after .tdataRead (select 7 0 0 State.reset)).readRegister .evt = 0x8000#16 := by decide

theorem test_enables : (after (.ctlWrite 0xFFFD#16) (after (.evtenWrite 1) working)).intAsserted = true := by decide

theorem test_ctl_write : (after (.ctlWrite 0xFFFF#16) State.reset).readRegister .ctl = 0x0003#16 := by decide

/-- Threshold 0 is stored as 1 and 63 as 32 (R120). -/
theorem test_cqcfg_write :
    (after (.cqcfgWrite 0x0000#16) State.reset).readRegister .cqCfg = 0x0001#16 ∧
      (after (.cqcfgWrite 0xFFFF#16) State.reset).readRegister .cqCfg = 0xFF20#16 := by decide

/-- Section 9.4: the reading across a carry. -/
theorem test_tblo_read :
    (after .tbloRead (State.reset.updEv (fun x => { x with timeBase := 0x0001FFFE#32 }))).win.readData = 0xFFFE#16 ∧
      (after .tbloRead (State.reset.updEv (fun x => { x with timeBase := 0x0001FFFE#32 }))).readRegister .tbHi = 0x0001#16 := by decide

theorem test_time_base_wraps :
    (after .timeBaseCount (State.reset.updEv (fun x => { x with timeBase := 0xFFFFFFFF#32 }))).ev.timeBase = 0 := by decide

theorem test_undefined_word : (after (.undefinedWordAccess 7 .read) State.reset).readRegister .evt = 0x4000#16 := by decide

theorem test_register_write :
    (after (.registerWrite .tsel 0xFFFF#16) State.reset).readRegister .tsel = 0x073F#16 ∧
      (after (.registerWrite .tidx 0xFFFF#16) State.reset).readRegister .tidx = 0x803F#16 := by decide

theorem test_coalescing_expiry :
    (after .coalescingTimerExpiry { queued 3 20 0 with cq := { queue := [2], threshold := 3, delay := 20, timer := some 2000 } }).readRegister .evt =
      0x0001#16 := by decide

/-! ### Resets and power -/

/-- RST# with SPG5 asserted: S5 SETTLING, due in 20 ms, with SEG5_CHANGE, bit 6 (R148). -/
theorem test_rst :
    (after .rstEnd (after .rstAssert (powered .faulted true none none))).readRegister (.segStat 5) = 0x2002#16 ∧
      (after .rstEnd (after .rstAssert (powered .faulted true none none))).readRegister .evt = 0x0040#16 ∧
      (after .rstAssert working).readRegister .winId = 0 := by decide

theorem test_spg_assert :
    ((after (.spgAssert 5) (powered .dark false none none)).seg 5).state = .settling ∧
      ((after (.spgAssert 5) (powered .up false none (some 2000))).seg 5).glitchCount = 1 := by decide

theorem test_spg_deassert :
    ((after (.spgDeassert 5) (powered .settling true (some 20000) none)).seg 5).state = .dark ∧
      ((after (.spgDeassert 5) (powered .up true none none)).seg 5).glitchTimer = some 2000 := by decide

theorem test_settle_expiry :
    (after (.settleTimerExpiry 5) (powered .settling true (some 20000) none)).readRegister (.segStat 5) = 0x0003#16 := by decide

/-- A loss under loss policy FLUSH: SEGMENT_LOST, DARK, FLUSHING (R87, R50). -/
theorem test_glitch_expiry :
    ((after (.glitchTimerExpiry 0) (working.updSeg 0 (fun x => { x with spg := false, glitchTimer := some 2000 }))).slot 0).outcome =
        .completed .segmentLost ∧
      (after (.glitchTimerExpiry 0) (working.updSeg 0 (fun x => { x with spg := false, glitchTimer := some 2000 }))).readRegister (.segStat 0) =
        0x2041#16 := by decide

/-! ### Dispatch and the engine -/

/-- A head on a free bus gets its start in the evaluation; 4 µs are too short for STANDARD (R66, R67). -/
theorem test_head_evaluation :
    ((after (.headEvaluation 0 5) (headed write2 (up {}) .present)).engine 0).state = .transfer ∧
      ((after (.headEvaluation 0 4) (headed write2 (up {}) .present)).engine 0).state = .waitFree := by decide

/-- A non-PROBE head to a quarantined target completes without the bus (R46). -/
theorem test_head_quarantined :
    ((after (.headEvaluation 0 5) (headed write2 (up {}) .quarantined)).slot 0).outcome = .completed .targetQuarantined ∧
      ((after (.headEvaluation 0 5) (headed { kind := 4 } (up {}) .quarantined)).slot 0).state = .active := by decide

theorem test_engine_start :
    ((after (.engineStart 0) (busy write2 spell)).engine 0).state = .transfer ∧
      (after (.engineStart 0) (busy write2 spell)).engineByte 0 = some 0xA0#8 := by decide

/-- A bus with the data line low is not free (R64). -/
theorem test_engine_start_waits : ((after (.engineStart 0) stuckLow).engine 0).state = .waitFree := by decide

/-- BUS_BUSY is a bus failure: failures 1, the target untouched, a backoff of 1 ms (R98, R102). -/
theorem test_busy_expiry :
    ((after (.busyTimerExpiry 0) (busy write2 spell)).slot 0).failures = 1 ∧
      ((after (.busyTimerExpiry 0) (busy write2 spell)).engine 0).backoffTimer = some 1000 ∧
      ((after (.busyTimerExpiry 0) (busy write2 spell)).target 0).failureCount = 0 := by decide

theorem test_stuck_detected :
    (after (.stuckDetected 0) stuckLow).readRegister (.segStat 0) = 0x0034#16 ∧
      (after (.stuckDetected 0) (busy write2 spell)).readRegister (.segStat 0) = 0x000B#16 := by decide

/-- An address ACK makes an UNKNOWN target PRESENT and keeps a QUARANTINED one (R93). -/
theorem test_engine_address_byte :
    ((after (.engineAddressByte 0 true) (busy write2 (at_ .address))).target 0).presence = .present ∧
      ((after (.engineAddressByte 0 true) (busy write2 (at_ .address))).engine 0).pos = .writeByte 0 := by decide

theorem test_engine_write_byte :
    ((after (.engineWriteByte 0 true) (busy write2 (at_ (.writeByte 1)))).engine 0).pos = .closingStop ∧
      ((after (.engineWriteByte 0 false) (busy write2 (at_ (.writeByte 0)))).engine 0).met = some .nackData := by decide

/-- A BLOCK_READ count byte of 32 is a LENGTH_ERROR, and one of 2 calls for two more bytes (R73). -/
theorem test_engine_read_byte :
    ((after (.engineReadByte 0 32) (busy { kind := 5 } (at_ (.readByte 0)))).engine 0).met = some .lengthError ∧
      ((after (.engineReadByte 0 7) (busy { kind := 5, readData := [2, 6] } (at_ (.readByte 2)))).engine 0).pos = .closingStop := by decide

/-- Section 11.3: the second NACK_ADDRESS under retry limit 1 gives the slot up and the target is ABSENT; the third failure of the target meets
threshold 3. -/
theorem test_closing_stop :
    ((after (.closingStop 0) (targetIs 0 { there with retryLimit := 1, threshold := 3, presence := .present, failureCount := 1 }
        (busy { write2 with failures := 1 } { at_ .closingStop with met := some .nackAddress }))).target 0).presence = .absent ∧
      ((after (.closingStop 0) (targetIs 0 { there with retryLimit := 1, threshold := 3, presence := .absent, failureCount := 2 }
        (busy write2 { at_ .closingStop with met := some .nackAddress }))).target 0).presence = .quarantined := by decide

/-- The last poll of the limit that does not match is POLL_EXPIRED, with the target credited (R74, R103). -/
theorem test_closing_stop_poll :
    ((after (.closingStop 0) (busy { poll with pollsUsed := 1, readData := [0] } (at_ .closingStop))).slot 0).outcome = .completed .pollExpired ∧
      ((after (.closingStop 0) (busy { poll with readData := [0] } (at_ .closingStop))).engine 0).pollTimer = some 5000 := by decide

theorem test_stop_failed : ((after (.stopFailed 0) (busy write2 (at_ .closingStop))).seg 0).state = .recovering := by decide

theorem test_mark_close_stop :
    ((after (.markCloseStop 0) (after (.engineWriteByte 0 true) (busy { write2 with mark := .aborted } (at_ (.writeByte 0))))).engine 0).state =
        .idle ∧
      ((after (.engineWriteByte 0 true) (busy { write2 with mark := .aborted } (at_ (.writeByte 0)))).slot 0).bytesAccepted = 1 := by decide

theorem test_offline_close_stop :
    (after (.offlineCloseStop 0) (after .offline (arg 0 working))).readRegister (.segStat 0) = 0x1040#16 ∧
      ((after (.offlineCloseStop 0) (after .offline (arg 0 working))).seg 0).gate = .released := by decide

/-- The line left low at the stop after OFFLINE is low when the segment is UP again (R88, R64). -/
theorem test_offline_stop_failed :
    ((after (.stopFailed 0) (after .offline (arg 0 working))).seg 0).sdaHigh = false ∧
      ((after (.offlineCloseStop 0) (after .offline (arg 0 working))).seg 0).sdaHigh = true := by decide

theorem test_arbitration_lost :
    ((after (.arbitrationLost 0) (busy write2 (at_ .address))).engine 0).lastFailure = some .arbLost ∧
      ((after (.arbitrationLost 0) (busy write10 (at_ (.writeByte 0)))).engine 0).state = .backoff ∧
      ((after (.arbitrationLost 0) (busy write10 (at_ (.writeByte 1)))).engine 0).state = .transfer ∧
      ((after (.arbitrationLost 0) (busy write2 (at_ (.readByte 0)))).engine 0).state = .transfer := by decide

theorem test_stretch_expiry :
    ((after (.stretchTimerExpiry 0) stretched).engine 0).releaseTimer = some 50000 ∧
      ((after (.stretchTimerExpiry 0) (after (.lineChangeOutsideTransfer 0 .clock true) stretched)).engine 0).state = .transfer := by decide

/-- STRETCH_TIMEOUT is taken at the stop that closes RELEASE_WAIT (R82). -/
theorem test_clock_released :
    ((after (.clockReleased 0) (after (.stretchTimerExpiry 0) stretched)).slot 0).failures = 0 ∧
      ((after (.closingStop 0) (after (.clockReleased 0) (after (.stretchTimerExpiry 0) stretched))).engine 0).lastFailure =
        some .stretchTimeout := by decide

theorem test_release_expiry :
    (after (.releaseTimerExpiry 0) (after (.stretchTimerExpiry 0) stretched)).readRegister (.segStat 0) = 0x2005#16 := by
  decide

/-- The ninth pulse with the line still low is the last (R84). -/
theorem test_recovery_pulse :
    ((after (.recoveryPulse 0 false) (recovering 8 false)).slot 0).outcome = .completed .segmentFault ∧
      ((after (.recoveryPulse 0 true) (recovering 8 false)).engine 0).recoveryStop = true := by decide

theorem test_recovery_stop :
    ((after (.recoveryStop 0 true) (recovering 3 true)).engine 0).lastFailure = some .busStuck ∧
      ((after (.recoveryStop 0 false) (recovering 3 true)).engine 0).recoveryStop = false := by decide

theorem test_backoff_expiry :
    ((after (.backoffTimerExpiry 0 5) (busy write2 backing)).engine 0).state = .transfer ∧
      ((after (.backoffTimerExpiry 0 5) (busy { write2 with failures := 3 } backing)).slot 0).failures = 3 := by decide

theorem test_poll_expiry :
    ((after (.pollTimerExpiry 0 5) (busy { poll with readData := [0], bytesAccepted := 1 } polling)).slot 0).readData = [] := by decide

/-- A stretch starts with the stretch limit of 30 ms (R63), a busy spell with the bus busy limit of 50 ms (R68). -/
theorem test_line_change :
    ((after (.lineChangeOutsideTransfer 0 .clock false) (busy write2 (at_ .address))).engine 0).stretchTimer = some 30000 ∧
      ((after (.lineChangeOutsideTransfer 0 .clock false) (busy write2 { spell with busyTimer := none })).engine 0).busyTimer = some 50000 ∧
      ((after (.lineChangeOutsideTransfer 0 .clock false) (busy write2 { spell with busyTimer := some 7 })).engine 0).busyTimer = some 7 := by
  decide

/-- A fall of the data line with the clock high is a start: the transfer is known and the bus busy (R62, R64, R68). -/
theorem test_line_change_start :
    ((after (.lineChangeOutsideTransfer 0 .data false) (busy write2 { spell with busyTimer := none })).seg 0).known = true ∧
      ((after (.lineChangeOutsideTransfer 0 .data false) (busy write2 { spell with busyTimer := none })).engine 0).busyTimer = some 50000 ∧
      ((after (.lineChangeOutsideTransfer 0 .data false) (busy write2 spell)).ctx 0).phase = .address := by
  decide

/-- A transfer of another controller that the loss of power cuts off leaves the data line low, so that the bus is stuck and not free after the
next entry to UP (R64). In a known transfer a level is recorded, and a rise of the data line with the clock low is no stop (R62). -/
theorem test_line_left_low :
    ((after (.spgDeassert 5) (remote { phase := .writing, mailbox := 3 } |>.updSeg 5 (fun x => { x with spg := true, config.glitchWindow := 0 })
        |> after (.remoteStart 5))).seg 5).busStuck 2000 = true ∧
      ((after (.lineChangeOutsideTransfer 5 .data true) (after (.lineChangeOutsideTransfer 5 .clock false)
        (after (.remoteStart 5) (remote {})))).seg 5).known = true ∧
      ((after (.lineChangeOutsideTransfer 5 .data true) (after (.remoteStart 5) (remote {}))).seg 5).known = false := by decide

/-! ### The host's strobes -/

/-- Offset 06h is LA5 to LA1 = 00011: 0005h written there is RETIRE; with LCS# deasserted nothing is written (R179, section 10.3). -/
theorem test_strobe_command :
    strobeRow true 0b00011#5 (.write 0x0005#16) State.reset = some .retire ∧
      strobeRow true 0b00011#5 (.write 0x0007#16) State.reset = some (.unknownCommand 0x07#8) ∧
      strobeRow false 0b00011#5 (.write 0x0005#16) State.reset = none := by decide

/-- TDATA, offset 1Ah, is the row of the word selected; SEGSTAT0 stands at 22h and MBSTAT at 2Eh. -/
theorem test_strobe_words :
    strobeRow true 0b01101#5 (.write 7) (select 3 5 3 State.reset) = some (.readOnlyTableWrite 7) ∧
      strobeData true 0b10001#5 State.reset = some 0x2001#16 ∧ strobeRow true 0b10111#5 .read State.reset = none ∧
      strobeRow true 0b11000#5 .read State.reset = some (.undefinedWordAccess 0 .read) := by decide

/-! ### Remote transfers -/

theorem test_remote_start :
    ((after (.remoteStart 5) (remote {})).ctx 5).phase = .address ∧ ((after (.remoteStart 5) (remote {})).seg 5).known = true := by decide

/-- Section 8.10: 28h with mask 7Ch matches 28h to 2Bh and not 2Ch. -/
theorem test_remote_address_byte :
    ((after (.remoteAddressByte 5 0x56#8) (remote { phase := .address })).box 3).inState = .filling ∧
      ((after (.remoteAddressByte 5 0x58#8) (remote { phase := .address })).ctx 5).phase = .unaddressed := by decide

/-- The 33rd byte is NACKed with MB_OVERFLOW, bit 9 (R156). -/
theorem test_remote_write_byte :
    (after (.remoteWriteByte 5 7) (boxIs 3 { inState := .filling, inLength := 32 } (remote { phase := .writing, mailbox := 3 }))).readRegister .evt =
        0x0200#16 ∧
      ((after (.remoteWriteByte 5 7) (boxIs 3 { inState := .filling, inLength := 32 } (remote { phase := .writing, mailbox := 3, count := 32 }))).ctx
        5).count = 33 ∧
      ((after (.remoteWriteByte 5 7) (remote { phase := .writing, mailbox := 3 })).box 3).inLength = 1 := by decide

theorem test_remote_read_byte :
    ((after (.remoteReadByte 5 true) (remote { phase := .reading, mailbox := 3 })).ctx 5).sent = 0xFF#8 := by decide

/-- Section 8.10: a write of three bytes ends FULL with MB_INBOUND, bit 8. -/
theorem test_remote_repeated_start :
    ((after (.remoteRepeatedStart 5) (boxIs 3 { inState := .filling, inLength := 3 } (remote { phase := .writing, mailbox := 3 }))).box 3).inState =
        .full ∧
      (after (.remoteRepeatedStart 5) (boxIs 3 { inState := .filling, inLength := 3 } (remote { phase := .writing, mailbox := 3 }))).readRegister
        .evt = 0x0100#16 := by decide

/-- Section 8.10: a read of two buffer bytes ends EMPTY with last-read length 2. -/
theorem test_remote_stop :
    ((after (.remoteStop 5) (boxIs 3 { outState := .sending, outLength := 2 } (remote { phase := .reading, mailbox := 3, count := 2 }))).box 3).lastRead =
        2 ∧
      ((after (.remoteStop 5) (boxIs 3 { outState := .sending, outLength := 2 } (remote { phase := .reading, mailbox := 3, count := 2 }))).box
        3).outState = .empty := by decide

theorem test_hold_expiry :
    (after (.holdTimerExpiry 5) (remote holding)).nextSent 5 = 0xFF#8 ∧ ((after (.holdTimerExpiry 5) (remote holding)).ctx 5).phase = .reading := by
  decide

end Sys2Proof.Tests
end

section
/-! SUPPORT. What a row keeps of the identities, the reference counts and the counts: the relations between two states in which it is said (Quiet,
Books, Keeps, Loosens), each with the rule by which the invariants of Safety.lean pass along it. -/

namespace Sys2Proof.Machine

open Sys2Proof.Safety Sys2Proof.Claims

/-! ### The counts, unit by unit -/

/-- The counts of a slot lie in the ranges of its record. -/
structure RecordInRange (x : Slot) : Prop where
  failures : x.failures ≤ 8
  pollsUsed : x.pollsUsed ≤ 255
  bytesAccepted : x.bytesAccepted ≤ 32
  readData : x.readData.length ≤ 32

/-- What CountInv asks of a posted slot beyond the ranges of its record. -/
structure PostedInRange (x : Slot) : Prop where
  failures : x.failures ≤ 7
  descriptor : ∃ k : Kind, DescriptorInv x k

/-- The attempt of the engine of g stays within the counts of its active slot. -/
def AttemptInRange (s : State) (g : Seg) : Prop :=
  ∀ n : SlotId, (s.engine g).active = some n → ProgressInv (s.slot n) (s.engine g)

/-- CountInv while the engine of g changes slot n: of that slot only the ranges of the record are asked, and of that engine nothing. -/
structure LooseInv (g : Seg) (n : SlotId) (s : State) : Prop where
  records : ∀ m : SlotId, RecordInRange (s.slot m)
  posts : ∀ m : SlotId, m ≠ n → posted (s.slot m) → PostedInRange (s.slot m)
  attempts : ∀ h : Seg, h ≠ g → AttemptInRange s h
  entries : ∀ k : TargetId, (s.target k).failureCount ≤ 15
  glitches : ∀ h : Seg, (s.seg h).glitchCount ≤ 255

theorem countInv_record {s : State} (h : CountInv s) (n : SlotId) : RecordInRange (s.slot n) :=
  ⟨h.failures n, h.pollsUsed n, h.bytesAccepted n, h.readData n⟩

theorem countInv_posted {s : State} (h : CountInv s) {n : SlotId} (hp : posted (s.slot n)) : PostedInRange (s.slot n) :=
  ⟨h.postedFailures n hp, h.descriptor n hp⟩

/-- CountInv holds of a state when it holds of its units. -/
theorem countInv_of_units {s : State} (records : ∀ n, RecordInRange (s.slot n)) (posts : ∀ n, posted (s.slot n) → PostedInRange (s.slot n))
    (attempts : ∀ g, AttemptInRange s g) (entries : ∀ k, (s.target k).failureCount ≤ 15) (glitches : ∀ g, (s.seg g).glitchCount ≤ 255) :
    CountInv s :=
  ⟨fun n => (records n).failures, fun n hp => (posts n hp).failures, fun n => (records n).pollsUsed, fun n => (records n).bytesAccepted,
    fun n => (records n).readData, fun n hp => (posts n hp).descriptor, attempts, entries, glitches⟩

theorem looseInv_of_countInv {s : State} (h : CountInv s) (g : Seg) (n : SlotId) : LooseInv g n s :=
  ⟨countInv_record h, fun _ _ hp => countInv_posted h hp, fun j _ => h.progress j, h.failureCount, h.glitchCount⟩

/-- What is loose is in order again once the slot and the engine are. -/
theorem countInv_of_looseInv {s : State} {g : Seg} {n : SlotId} (h : LooseInv g n s) (hp : posted (s.slot n) → PostedInRange (s.slot n))
    (ha : AttemptInRange s g) : CountInv s := by
  refine countInv_of_units h.records (fun m hm => ?_) (fun j => ?_) h.entries h.glitches
  · by_cases hmn : m = n
    · subst hmn; exact hp hm
    · exact h.posts m hmn hm
  · by_cases hj : j = g
    · subst hj; exact ha
    · exact h.attempts j hj

/-! ### The progress of an attempt -/

/-- The progress of an attempt is read off the state, the closing and the byte position of its engine. -/
theorem progressInv_congr {x : Slot} {e e' : Engine} (hstate : e'.state = e.state) (hclosing : e'.closing = e.closing)
    (hpos : e'.pos = e.pos) (h : ProgressInv x e) : ProgressInv x e' := by
  obtain ⟨waits, sends⟩ := h
  constructor
  · rw [hstate, hpos]; exact waits
  · rw [hstate, hclosing, hpos]; exact sends

/-- Outside WAIT_FREE and TRANSFER no byte is under way. -/
theorem progressInv_of_rest {x : Slot} {e : Engine} (hw : e.state ≠ .waitFree) (ht : e.state ≠ .transfer) : ProgressInv x e :=
  ⟨fun h => absurd h hw, fun h => absurd h ht⟩

/-- An engine in TRANSFER is in order when its byte position is. -/
theorem progressInv_of_transfer {x : Slot} {e : Engine} (ht : e.state = .transfer) (h : progressAt x e.pos) : ProgressInv x e :=
  ⟨fun hw => by simp [ht] at hw, fun _ _ => h⟩

/-! ### Quiet changes -/

/-- A slot keeps everything but its mark and its outcome. -/
def SlotQuiet (x y : Slot) : Prop := y = { x with mark := y.mark, outcome := y.outcome }

/-- An entry keeps its identity and its reference count, and its failure count stays in range. -/
structure EntryQuiet (d e : TargetEntry) : Prop where
  identity : e.identity = d.identity
  refCount : e.refCount = d.refCount
  failureCount : d.failureCount ≤ 15 → e.failureCount ≤ 15

/-- An engine gives its active slot up, or keeps it with an attempt that stays in range. -/
def EngineQuiet (d e : Engine) : Prop :=
  e.active = none ∨ (e.active = d.active ∧ ∀ x : Slot, ProgressInv x d → ProgressInv x e)

/-- The glitch count of a segment stays in range, and its engine changes quietly. -/
structure SegQuiet (x y : Segment) : Prop where
  glitchCount : x.glitchCount ≤ 255 → y.glitchCount ≤ 255
  engine : EngineQuiet x.engine y.engine

/-- From s to t nothing changes that the identities, the reference counts and the counts rest on. -/
structure Quiet (s t : State) : Prop where
  slots : ∀ n : SlotId, SlotQuiet (s.slot n) (t.slot n)
  entries : ∀ k : TargetId, EntryQuiet (s.target k) (t.target k)
  segments : ∀ g : Seg, SegQuiet (s.seg g) (t.seg g)

theorem slotQuiet_refl (x : Slot) : SlotQuiet x x := rfl

theorem entryQuiet_refl (e : TargetEntry) : EntryQuiet e e := ⟨rfl, rfl, id⟩

/-- An engine that keeps its active slot, its state, its closing and its byte position. -/
theorem engineQuiet_of_eq {d e : Engine} (hactive : e.active = d.active) (hstate : e.state = d.state) (hclosing : e.closing = d.closing)
    (hpos : e.pos = d.pos) : EngineQuiet d e :=
  .inr ⟨hactive, fun _ => progressInv_congr hstate hclosing hpos⟩

theorem engineQuiet_refl (e : Engine) : EngineQuiet e e := engineQuiet_of_eq rfl rfl rfl rfl

/-- An engine that keeps its active slot and leaves WAIT_FREE and TRANSFER. -/
theorem engineQuiet_of_rest {d e : Engine} (hactive : e.active = d.active) (hw : e.state ≠ .waitFree) (ht : e.state ≠ .transfer) :
    EngineQuiet d e :=
  .inr ⟨hactive, fun _ _ => progressInv_of_rest hw ht⟩

/-- An engine that keeps its active slot and goes on to the closing stop. -/
theorem engineQuiet_of_close {d e : Engine} (hactive : e.active = d.active) (ht : e.state = .transfer) (hpos : e.pos = .closingStop) :
    EngineQuiet d e :=
  .inr ⟨hactive, fun _ _ => progressInv_of_transfer ht (by rw [hpos]; trivial)⟩

theorem segQuiet_of_engine {x y : Segment} (hg : y.glitchCount = x.glitchCount) (he : EngineQuiet x.engine y.engine) : SegQuiet x y :=
  ⟨fun h => hg ▸ h, he⟩

/-- A segment whose engine and glitch count stay. -/
theorem segQuiet_of_eq {x y : Segment} (hg : y.glitchCount = x.glitchCount) (he : y.engine = x.engine) : SegQuiet x y :=
  segQuiet_of_engine hg (he ▸ engineQuiet_refl _)

theorem segQuiet_refl (x : Segment) : SegQuiet x x := segQuiet_of_eq rfl rfl

theorem engineQuiet_trans {d e f : Engine} (h : EngineQuiet d e) (k : EngineQuiet e f) : EngineQuiet d f := by
  rcases k with k | ⟨kactive, kprogress⟩
  · exact .inl k
  · rcases h with h | ⟨hactive, hprogress⟩
    · exact .inl (kactive.trans h)
    · exact .inr ⟨kactive.trans hactive, fun x hx => kprogress x (hprogress x hx)⟩

theorem quiet_refl (s : State) : Quiet s s :=
  ⟨fun _ => slotQuiet_refl _, fun _ => entryQuiet_refl _, fun _ => segQuiet_refl _⟩

theorem quiet_trans {s t u : State} (h : Quiet s t) (k : Quiet t u) : Quiet s u where
  slots n := (k.slots n).trans (by rw [h.slots n])
  entries j :=
    ⟨(k.entries j).identity.trans (h.entries j).identity, (k.entries j).refCount.trans (h.entries j).refCount,
      fun hc => (k.entries j).failureCount ((h.entries j).failureCount hc)⟩
  segments g :=
    ⟨fun hc => (k.segments g).glitchCount ((h.segments g).glitchCount hc), engineQuiet_trans (h.segments g).engine (k.segments g).engine⟩

/-- A state that keeps the slots, the Target Table and the segments, whatever becomes of the window, the flags, the queue and the mailboxes. -/
theorem quiet_of_eq {s t : State} (hslots : t.slots = s.slots) (htargets : t.targets = s.targets) (hsegs : t.segs = s.segs) : Quiet s t where
  slots n := by rw [show t.slot n = s.slot n from congrArg (fun v => v[n]) hslots]; exact slotQuiet_refl _
  entries k := by rw [show t.target k = s.target k from congrArg (fun v => v[k]) htargets]; exact entryQuiet_refl _
  segments g := by rw [show t.seg g = s.seg g from congrArg (fun v => v[g]) hsegs]; exact segQuiet_refl _

theorem quiet_updSeg {s : State} {g : Seg} {f : Segment → Segment} (h : SegQuiet (s.seg g) (f (s.seg g))) : Quiet s (s.updSeg g f) where
  slots _ := slotQuiet_refl _
  entries _ := entryQuiet_refl _
  segments j := by
    rw [updSeg_seg]
    split
    · rename_i hj; subst hj; exact h
    · exact segQuiet_refl _

theorem quiet_updEngine {s : State} {g : Seg} {f : Engine → Engine} (h : EngineQuiet (s.engine g) (f (s.engine g))) :
    Quiet s (s.updEngine g f) :=
  quiet_updSeg (segQuiet_of_engine rfl h)

theorem quiet_updCtx (s : State) (g : Seg) (f : RxContext → RxContext) : Quiet s (s.updCtx g f) := quiet_updSeg (segQuiet_of_eq rfl rfl)

theorem quiet_updTarget {s : State} {k : TargetId} {f : TargetEntry → TargetEntry} (h : ∀ e, EntryQuiet e (f e)) :
    Quiet s (s.updTarget k f) where
  slots _ := slotQuiet_refl _
  entries j := by
    rw [updTarget_target]
    split
    · rename_i hj; subst hj; exact h _
    · exact entryQuiet_refl _
  segments _ := segQuiet_refl _

theorem quiet_updEntryOf {s : State} {n : SlotId} {f : TargetEntry → TargetEntry} (h : ∀ e, EntryQuiet e (f e)) :
    Quiet s (s.updEntryOf n f) := by
  unfold State.updEntryOf
  split
  · exact quiet_updTarget h
  · exact quiet_refl s

theorem quiet_updSlot {s : State} {n : SlotId} {f : Slot → Slot} (h : ∀ x, SlotQuiet x (f x)) : Quiet s (s.updSlot n f) where
  slots m := by
    rw [updSlot_slot]
    split
    · rename_i hm; subst hm; exact h _
    · exact slotQuiet_refl _
  entries _ := entryQuiet_refl _
  segments _ := segQuiet_refl _

/-! ### The books: identities and reference counts -/

/-- The valid field, the segment and the address of every entry decide the invariant of the identities. -/
theorem identityInv_congr {s t : State} (h : ∀ k, (t.target k).identity = (s.target k).identity) (hi : IdentityInv s) : IdentityInv t := by
  have valid : ∀ k, (t.target k).valid = (s.target k).valid := fun k => congrArg Identity.valid (h k)
  have segment : ∀ k, (t.target k).segment = (s.target k).segment := fun k => congrArg Identity.segment (h k)
  have address : ∀ k, (t.target k).address = (s.target k).address := fun k => congrArg Identity.address (h k)
  constructor
  · intro k hk
    rw [h k]; exact hi.usable k (valid k ▸ hk)
  · intro j k hjk hj hk
    rw [segment, segment, address, address]
    exact hi.unique j k hjk (valid j ▸ hj) (valid k ▸ hk)

/-- Slot n is posted and names entry k. -/
def State.names (s : State) (k : TargetId) (n : SlotId) : Bool :=
  (decide ((s.slot n).state = .pending) || decide ((s.slot n).state = .active)) && decide ((s.slot n).target.toNat = k.val)

theorem names_iff {s : State} {k : TargetId} {n : SlotId} : s.names k n = true ↔ posted (s.slot n) ∧ s.targetIndex n = some k := by
  simp [State.names, posted, targetIndex_eq_some]

theorem postedCount_congr {s t : State} {k : TargetId} (h : ∀ n, t.names k n = s.names k n) : postedCount t k = postedCount s k :=
  congrArg (fun p => allSlots.countP p) (funext h)

/-- One element more that counts, and the others alike, make the count one more. -/
theorem countP_finRange_succ {N : Nat} {p q : Fin N → Bool} {n : Fin N} (hp : p n = true) (hq : q n = false) (h : ∀ m, m ≠ n → p m = q m) :
    (List.finRange N).countP p = (List.finRange N).countP q + 1 := by
  have hperm := List.perm_cons_erase (List.mem_finRange n)
  have hrest : ((List.finRange N).erase n).countP p = ((List.finRange N).erase n).countP q :=
    List.countP_congr fun m hm => by rw [h m ((List.nodup_finRange N).mem_erase_iff.mp hm).1]
  rw [hperm.countP_eq p, hperm.countP_eq q, List.countP_cons, List.countP_cons, hrest, hp, hq]
  simp

/-- One slot more that is posted and names the entry. -/
theorem postedCount_succ {s t : State} {k : TargetId} {n : SlotId} (hs : s.names k n = true) (ht : t.names k n = false)
    (h : ∀ m, m ≠ n → s.names k m = t.names k m) : postedCount s k = postedCount t k + 1 :=
  countP_finRange_succ (p := s.names k) (q := t.names k) hs ht h

/-- From s to t the same slots are posted, with the same target and segment, and the entries keep identity and reference count. -/
structure SameBooks (s t : State) : Prop where
  posted : ∀ n : SlotId, posted (t.slot n) ↔ posted (s.slot n)
  target : ∀ n : SlotId, Safety.posted (s.slot n) → (t.slot n).target = (s.slot n).target
  segment : ∀ n : SlotId, Safety.posted (s.slot n) → (t.slot n).segment = (s.slot n).segment
  identity : ∀ k : TargetId, (t.target k).identity = (s.target k).identity
  refCount : ∀ k : TargetId, (t.target k).refCount = (s.target k).refCount

theorem referenceInv_of_same {s t : State} (h : SameBooks s t) (r : ReferenceInv s) : ReferenceInv t := by
  have hindex : ∀ n, Safety.posted (s.slot n) → t.targetIndex n = s.targetIndex n := fun n hn => by
    simp only [State.targetIndex, h.target n hn]
  constructor
  · intro k
    rw [h.refCount, r.counted]
    refine (postedCount_congr fun n => ?_).symm
    rw [Bool.eq_iff_iff, names_iff, names_iff, h.posted]
    exact and_congr_right fun hn => by rw [hindex n hn]
  · intro n hn
    have hn' := (h.posted n).mp hn
    obtain ⟨k, hk, hvalid, hseg⟩ := r.named n hn'
    refine ⟨k, (hindex n hn').trans hk, ?_, ?_⟩
    · rw [show (t.target k).valid = (s.target k).valid from congrArg Identity.valid (h.identity k)]; exact hvalid
    · rw [show (t.target k).segment = (s.target k).segment from congrArg Identity.segment (h.identity k), h.segment n hn']; exact hseg

/-- From s to t the identities stay in order, and, P being known of the row's first state, the reference counts. -/
structure Books (P : Prop) (s t : State) : Prop where
  identity : IdentityInv s → IdentityInv t
  reference : P → ReferenceInv s → ReferenceInv t

/-- From s to t the books and the counts stay in order. P is what is known of the state in which the row is taken: that it meets WorkInv. -/
structure Keeps (P : Prop) (s t : State) : Prop extends Books P s t where
  count : P → CountInv s → CountInv t

/-- From s to t the books stay in order, and the counts do but for what the engine of g changes on slot n. -/
structure Loosens (P : Prop) (g : Seg) (n : SlotId) (s t : State) : Prop extends Books P s t where
  count : P → CountInv s → LooseInv g n t

variable {P : Prop}

theorem books_of_same {s t : State} (hi : ∀ k, (t.target k).identity = (s.target k).identity) (h : P → SameBooks s t) : Books P s t :=
  ⟨identityInv_congr hi, fun hp => referenceInv_of_same (h hp)⟩

theorem books_refl (s : State) : Books P s s := ⟨id, fun _ => id⟩

theorem books_trans {s t u : State} (h : Books P s t) (k : Books P t u) : Books P s u :=
  ⟨fun i => k.identity (h.identity i), fun p r => k.reference p (h.reference p r)⟩

theorem keeps_refl (s : State) : Keeps P s s := ⟨books_refl s, fun _ => id⟩

theorem keeps_trans {s t u : State} (h : Keeps P s t) (k : Keeps P t u) : Keeps P s u :=
  ⟨books_trans h.toBooks k.toBooks, fun p c => k.count p (h.count p c)⟩

theorem loosens_of_keeps {s t : State} (h : Keeps P s t) (g : Seg) (n : SlotId) : Loosens P g n s t :=
  ⟨h.toBooks, fun p c => looseInv_of_countInv (h.count p c) g n⟩

/-! ### What quiet changes keep -/

theorem slotQuiet_posted {x y : Slot} (h : SlotQuiet x y) : posted y ↔ posted x := by rw [h]

theorem slotQuiet_record {x y : Slot} (h : SlotQuiet x y) (hx : RecordInRange x) : RecordInRange y := by
  rw [h]; exact ⟨hx.failures, hx.pollsUsed, hx.bytesAccepted, hx.readData⟩

theorem slotQuiet_postedInRange {x y : Slot} (h : SlotQuiet x y) (hx : PostedInRange x) : PostedInRange y := by
  obtain ⟨hfail, k, hkind, hlengths, hpolls⟩ := hx
  rw [h]; exact ⟨hfail, k, hkind, hlengths, hpolls⟩

/-- The progress of an attempt is read off the two counts, the kind, the bytes accepted and the read data of its slot. -/
theorem progressAt_congr {x y : Slot} (hkind : y.kind = x.kind) (hwrite : y.writeCount = x.writeCount) (hread : y.readCount = x.readCount)
    (hbytes : y.bytesAccepted = x.bytesAccepted) (hdata : y.readData = x.readData) (pos : BytePos) :
    progressAt y pos ↔ progressAt x pos := by
  cases pos <;> simp only [progressAt, hkind, hwrite, hread, hbytes, hdata]

theorem progressInv_slot {x y : Slot} {e : Engine} (h : ∀ pos, progressAt y pos ↔ progressAt x pos) (hx : ProgressInv x e) :
    ProgressInv y e :=
  ⟨fun hw => ⟨(hx.waits hw).1, (h _).mpr (hx.waits hw).2⟩, fun ht hc => (h _).mpr (hx.sends ht hc)⟩

theorem slotQuiet_progress {x y : Slot} {e : Engine} (h : SlotQuiet x y) (hx : ProgressInv x e) : ProgressInv y e :=
  progressInv_slot (progressAt_congr (by rw [h]) (by rw [h]) (by rw [h]) (by rw [h]) (by rw [h])) hx

theorem quiet_attempt {s t : State} (h : Quiet s t) {g : Seg} (ha : AttemptInRange s g) : AttemptInRange t g := by
  intro n hn
  rcases (h.segments g).engine with hq | ⟨hactive, hprogress⟩
  · rw [State.engine, hq] at hn; cases hn
  · exact slotQuiet_progress (h.slots n) (hprogress _ (ha n (hactive ▸ hn)))

theorem quiet_same {s t : State} (h : Quiet s t) : SameBooks s t where
  posted n := slotQuiet_posted (h.slots n)
  target n _ := by rw [h.slots n]
  segment n _ := by rw [h.slots n]
  identity k := (h.entries k).identity
  refCount k := (h.entries k).refCount

theorem quiet_countInv {s t : State} (h : Quiet s t) (hc : CountInv s) : CountInv t :=
  countInv_of_units (fun n => slotQuiet_record (h.slots n) (countInv_record hc n))
    (fun n hn => slotQuiet_postedInRange (h.slots n) (countInv_posted hc ((slotQuiet_posted (h.slots n)).mp hn)))
    (fun g => quiet_attempt h (hc.progress g)) (fun k => (h.entries k).failureCount (hc.failureCount k))
    (fun g => (h.segments g).glitchCount (hc.glitchCount g))

theorem quiet_looseInv {s t : State} {g : Seg} {n : SlotId} (h : Quiet s t) (hc : LooseInv g n s) : LooseInv g n t where
  records m := slotQuiet_record (h.slots m) (hc.records m)
  posts m hm hp := slotQuiet_postedInRange (h.slots m) (hc.posts m hm ((slotQuiet_posted (h.slots m)).mp hp))
  attempts j hj := quiet_attempt h (hc.attempts j hj)
  entries k := (h.entries k).failureCount (hc.entries k)
  glitches j := (h.segments j).glitchCount (hc.glitches j)

theorem keeps_of_quiet {s t : State} (h : Quiet s t) : Keeps P s t :=
  ⟨books_of_same (fun k => (h.entries k).identity) fun _ => quiet_same h, fun _ => quiet_countInv h⟩

/-- A state that keeps the slots, the Target Table and the segments keeps the books and the counts. -/
theorem keeps_of_eq {s t : State} (hslots : t.slots = s.slots) (htargets : t.targets = s.targets) (hsegs : t.segs = s.segs) : Keeps P s t :=
  keeps_of_quiet (quiet_of_eq hslots htargets hsegs)

theorem loosens_quiet {s t u : State} {g : Seg} {n : SlotId} (h : Loosens P g n s t) (k : Quiet t u) : Loosens P g n s u :=
  ⟨books_trans h.toBooks (keeps_of_quiet k).toBooks, fun p c => quiet_looseInv k (h.count p c)⟩

end Sys2Proof.Machine
end

section
/-! SUPPORT. What the completion of a slot and the shared operations of Machine/Work.lean keep of the identities, the reference counts and the counts. -/

namespace Sys2Proof.Machine

open Sys2Proof.Safety Sys2Proof.Claims

variable {P : Prop}

/-! ### The completion of a slot -/

theorem completeSlot_identity (n : SlotId) (st : Status) (s : State) (k : TargetId) :
    ((completeSlot n st s).target k).identity = (s.target k).identity := by
  rw [completeSlot_target]; split <;> rfl

theorem completeSlot_targetIndex (n : SlotId) (st : Status) (s : State) (m : SlotId) :
    (completeSlot n st s).targetIndex m = s.targetIndex m := by
  have h : ((completeSlot n st s).slot m).target = (s.slot m).target := by rw [completeSlot_slot]; split <;> simp_all
  simp only [State.targetIndex, h]

theorem completeSlot_not_posted (n : SlotId) (st : Status) (s : State) : ¬ posted ((completeSlot n st s).slot n) := by
  simp [completeSlot_slot, posted]

/-- The completion of a posted slot takes it off the count of the entry that it names, and lowers that entry's reference count (R10). -/
theorem completeSlot_reference {n : SlotId} {st : Status} {s : State} (hp : posted (s.slot n)) (r : ReferenceInv s) :
    ReferenceInv (completeSlot n st s) := by
  have hother : ∀ m, m ≠ n → (completeSlot n st s).slot m = s.slot m := fun m hm => by rw [completeSlot_slot, if_neg hm]
  have hgone : ∀ j, (completeSlot n st s).names j n = false := fun j =>
    Bool.eq_false_iff.mpr fun h => completeSlot_not_posted n st s (names_iff.mp h).1
  have hnames : ∀ j m, m ≠ n → s.names j m = (completeSlot n st s).names j m := fun j m hm => by
    simp only [State.names, hother m hm]
  constructor
  · intro j
    rw [completeSlot_target]
    split
    · rename_i hj
      have := postedCount_succ (names_iff.mpr ⟨hp, hj⟩) (hgone j) (hnames j)
      have := r.counted j
      simp only; omega
    · rename_i hj
      rw [r.counted j]
      refine (postedCount_congr fun m => ?_).symm
      by_cases hm : m = n
      · subst hm
        rw [hgone j]
        exact (Bool.eq_false_iff.mpr fun h => hj (names_iff.mp h).2).symm
      · exact (hnames j m hm).symm
  · intro m hm
    by_cases hmn : m = n
    · subst hmn; exact absurd hm (completeSlot_not_posted m st s)
    · rw [hother m hmn] at hm ⊢
      obtain ⟨k, hk, hvalid, hseg⟩ := r.named m hm
      have hid := completeSlot_identity n st s k
      refine ⟨k, (completeSlot_targetIndex n st s m).trans hk, ?_, ?_⟩
      · rw [← hvalid]; exact congrArg Identity.valid hid
      · rw [← hseg]; exact congrArg (fun d => BitVec.toNat d.segment) hid

theorem completeSlot_books {n : SlotId} {st : Status} {s : State} (hp : P → posted (s.slot n)) : Books P s (completeSlot n st s) :=
  ⟨identityInv_congr (completeSlot_identity n st s), fun p => completeSlot_reference (hp p)⟩

/-- A completion leaves the counts, the descriptor and the byte lists of every slot. -/
theorem completeSlot_counts (n : SlotId) (st : Status) (s : State) (m : SlotId) :
    (completeSlot n st s).slot m = { s.slot m with
      state := ((completeSlot n st s).slot m).state, outcome := ((completeSlot n st s).slot m).outcome
      completionTime := ((completeSlot n st s).slot m).completionTime } := by
  rw [completeSlot_slot]; split
  · rename_i h; subst h; rfl
  · rfl

theorem completeSlot_record {n m : SlotId} {st : Status} {s : State} (h : RecordInRange (s.slot m)) :
    RecordInRange ((completeSlot n st s).slot m) := by
  obtain ⟨hf, hp, hb, hr⟩ := h
  rw [completeSlot_counts]; exact ⟨hf, hp, hb, hr⟩

theorem completeSlot_failureCount (n : SlotId) (st : Status) (s : State) (k : TargetId) :
    ((completeSlot n st s).target k).failureCount = (s.target k).failureCount := by
  rw [completeSlot_target]; split <;> rfl

theorem completeSlot_attempt {n : SlotId} {st : Status} {s : State} {g : Seg} (h : AttemptInRange s g) :
    AttemptInRange (completeSlot n st s) g := by
  intro m hm
  rw [completeSlot_engine] at hm ⊢
  refine progressInv_slot (progressAt_congr ?_ ?_ ?_ ?_ ?_) (h m hm) <;> rw [completeSlot_counts]

theorem completeSlot_looseInv {g : Seg} {n : SlotId} {st : Status} {s : State} (h : LooseInv g n s) :
    LooseInv g n (completeSlot n st s) where
  records m := completeSlot_record (h.records m)
  posts m hm hp := by
    rw [completeSlot_slot, if_neg hm] at hp ⊢
    exact h.posts m hm hp
  attempts j hj := completeSlot_attempt (h.attempts j hj)
  entries k := by rw [completeSlot_failureCount]; exact h.entries k
  glitches j := by rw [completeSlot_seg]; exact h.glitches j

/-- The completion of a posted slot keeps the counts: its record shows them as they are. -/
theorem completeSlot_keeps {n : SlotId} {st : Status} {s : State} (hp : P → posted (s.slot n)) : Keeps P s (completeSlot n st s) := by
  refine ⟨completeSlot_books hp, fun _ c => ?_⟩
  -- the engine need not give its slot up here, so any segment will do for the one that is exempt
  exact countInv_of_looseInv (completeSlot_looseInv (looseInv_of_countInv c 0 n))
    (fun h => absurd h (completeSlot_not_posted n st s)) (completeSlot_attempt (c.progress 0))

/-- Whatever is changed of segment g, what the other engines do stays in range. -/
theorem looseInv_updSeg {g : Seg} {n : SlotId} {s : State} {f : Segment → Segment} (h : LooseInv g n s)
    (hg : (f (s.seg g)).glitchCount = (s.seg g).glitchCount) : LooseInv g n (s.updSeg g f) where
  records := h.records
  posts := h.posts
  attempts j hj m hm := by
    rw [updSeg_engine, if_neg hj] at hm ⊢
    exact h.attempts j hj m hm
  entries := h.entries
  glitches j := by
    rw [updSeg_seg]; split
    · rw [hg]; exact h.glitches g
    · exact h.glitches j

theorem updSeg_same (s : State) (g : Seg) (f : Segment → Segment) : SameBooks s (s.updSeg g f) :=
  ⟨fun _ => Iff.rfl, fun _ _ => rfl, fun _ _ => rfl, fun _ => rfl, fun _ => rfl⟩

theorem updSeg_books (s : State) (g : Seg) (f : Segment → Segment) : Books P s (s.updSeg g f) :=
  books_of_same (fun _ => rfl) fun _ => updSeg_same s g f

/-! ### The slot that an engine has in hand -/

/-- The active slot of the engine of g is ACTIVE, and no other engine's. -/
structure InHand (s : State) (g : Seg) : Prop where
  active : ∀ n : SlotId, (s.engine g).active = some n → (s.slot n).state = .active
  sole : ∀ (n : SlotId) (h : Seg), (s.engine g).active = some n → (s.engine h).active = some n → h = g

theorem inHand_of_workInv {s : State} (h : WorkInv s) (g : Seg) : InHand s g :=
  ⟨fun n hn => (h.engaged g n hn).1, fun n j hg hj => (h.engaged j n hj).2.symm.trans (h.engaged g n hg).2⟩

theorem inHand_congr {s t : State} {g : Seg} (h : InHand s g) (hstate : ∀ n, (t.slot n).state = (s.slot n).state)
    (hactive : ∀ j, (t.engine j).active = (s.engine j).active) : InHand t g := by
  constructor
  · intro n hn; rw [hstate]; exact h.active n (hactive g ▸ hn)
  · intro n j hg hj; exact h.sole n j (hactive g ▸ hg) (hactive j ▸ hj)

theorem inHand_posted {s : State} {g : Seg} {n : SlotId} (h : InHand s g) (hn : (s.engine g).active = some n) : posted (s.slot n) :=
  .inr (h.active n hn)

theorem completeActive_keeps {g : Seg} {st : Status} {s : State} (hw : P → InHand s g) : Keeps P s (completeActive g st s) := by
  unfold completeActive
  cases ha : (s.engine g).active with
  | none => exact keeps_refl s
  | some n => exact completeSlot_keeps fun p => inHand_posted (hw p) ha

theorem idleEngine_quiet (g : Seg) (s : State) : Quiet s (idleEngine g s) := quiet_updEngine (.inl rfl)

theorem finishSlot_keeps {g : Seg} {n : SlotId} {st : Status} {s : State} (hp : P → posted (s.slot n)) :
    Keeps P s (finishSlot g n st s) :=
  keeps_trans (completeSlot_keeps hp) (keeps_of_quiet (idleEngine_quiet g _))

/-- What is loose ends with the slot: its completion, and an engine of g that gives it up. -/
theorem keeps_of_complete {g : Seg} {n : SlotId} {st : Status} {s t : State} {f : Segment → Segment} (h : Loosens P g n s t)
    (hp : P → posted (t.slot n)) (hg : ∀ x, (f x).glitchCount = x.glitchCount) (ha : ∀ x, (f x).engine.active = none) :
    Keeps P s ((completeSlot n st t).updSeg g f) := by
  refine ⟨books_trans h.toBooks (books_trans (completeSlot_books hp) (updSeg_books _ g f)), fun p c => ?_⟩
  refine countInv_of_looseInv (looseInv_updSeg (completeSlot_looseInv (h.count p c)) (hg _))
    (fun hposted => absurd hposted (completeSlot_not_posted n st t)) fun m hm => ?_
  rw [updSeg_engine, if_pos rfl, ha] at hm; cases hm

theorem finishSlot_of_loosens {g : Seg} {n : SlotId} {st : Status} {s t : State} (h : Loosens P g n s t) (hp : P → posted (t.slot n)) :
    Keeps P s (finishSlot g n st t) :=
  keeps_of_complete (f := fun x => { x with engine := {} }) h hp (fun _ => rfl) fun _ => rfl

/-! ### Receive contexts and segment states -/

theorem endPhase_quiet (g : Seg) (s : State) : Quiet s (endPhase g s) := quiet_of_eq (by simp) (by simp) (by simp)

theorem contextStart_quiet (g : Seg) (s : State) : Quiet s (contextStart g s) :=
  quiet_trans (endPhase_quiet g s) (quiet_updCtx _ g _)

theorem contextStop_quiet (g : Seg) (s : State) : Quiet s (contextStop g s) :=
  quiet_trans (endPhase_quiet g s) (quiet_updCtx _ g _)

theorem endContext_quiet (g : Seg) (s : State) : Quiet s (endContext g s) where
  slots n := by rw [show (endContext g s).slot n = s.slot n by simp [State.slot]]; exact slotQuiet_refl _
  entries k := by rw [show (endContext g s).target k = s.target k by simp [State.target]]; exact entryQuiet_refl _
  segments j := by
    rw [endContext_seg]; split
    · rename_i hj; subst hj; exact segQuiet_of_eq rfl rfl
    · exact segQuiet_refl _

theorem releaseLines_quiet (g : Seg) (s : State) : Quiet s (releaseLines g s) := quiet_updSeg (segQuiet_of_eq rfl rfl)

theorem raise_quiet (s : State) (e : EventFlag) : Quiet s (s.raise e) := quiet_of_eq rfl rfl rfl

theorem enterState_quiet (g : Seg) (dest : SegState) (dm : DownMode) (s : State) : Quiet s (enterState g dest dm s) :=
  quiet_trans (quiet_updSeg (segQuiet_of_eq rfl rfl)) (raise_quiet _ _)

theorem stopQualifier_quiet (g : Seg) (s : State) : Quiet s (stopQualifier g s) := quiet_updSeg (segQuiet_of_eq rfl rfl)

theorem settleIfPowered_quiet (g : Seg) (s : State) : Quiet s (settleIfPowered g s) := by
  unfold settleIfPowered
  split
  · exact quiet_trans (quiet_updSeg (segQuiet_of_eq rfl rfl)) (raise_quiet _ _)
  · exact quiet_refl s

theorem depart_keeps {g : Seg} {dest : SegState} {dm : DownMode} {st : Status} {s : State} (hw : P → InHand s g) :
    Keeps P s (depart g dest dm st s) := by
  have hw' : P → InHand (releaseLines g s) g := fun p => inHand_congr (hw p) (fun _ => rfl) fun j => by
    simp only [releaseLines, updSeg_engine]; split <;> simp_all [State.engine]
  exact keeps_trans (keeps_of_quiet (releaseLines_quiet g s)) <| keeps_trans (completeActive_keeps hw') <| keeps_of_quiet <|
    quiet_trans (idleEngine_quiet g _) <| quiet_trans (enterState_quiet g dest dm _) (endContext_quiet g _)

/-- A change of segment g that leaves its active slot leaves every engine the slot that it has in hand. -/
theorem inHand_updSeg {s : State} {g : Seg} {f : Segment → Segment} (h : InHand s g)
    (ha : ((f (s.seg g)).engine).active = (s.engine g).active) : InHand (s.updSeg g f) g :=
  inHand_congr h (fun _ => rfl) fun j => by
    rw [updSeg_engine]; split
    · rename_i hj; rw [hj]; exact ha
    · rfl

theorem goDark_keeps {g : Seg} {s : State} (hw : P → InHand s g) : Keeps P s (goDark g s) :=
  keeps_trans (keeps_of_quiet (stopQualifier_quiet g s)) (depart_keeps fun p => inHand_updSeg (hw p) rfl)

theorem enterFaulted_keeps {g : Seg} {s : State} (hw : P → InHand s g) : Keeps P s (enterFaulted g s) := depart_keeps hw

/-! ### The begin of an attempt -/

theorem enterRecovery_quiet (g : Seg) (s : State) : Quiet s (enterRecovery g s) :=
  quiet_trans
    (quiet_updSeg (segQuiet_of_engine rfl (engineQuiet_of_rest rfl (by simp) (by simp))))
    (quiet_trans (enterState_quiet g _ _ _) (endContext_quiet g _))

/-- The start goes out before the first address byte: the attempt is where WAIT_FREE left it. -/
theorem sendStart_quiet {g : Seg} {s : State} (hw : (s.engine g).state = .waitFree) : Quiet s (sendStart g s) := by
  refine quiet_trans (quiet_updSeg (segQuiet_of_engine rfl (.inr ⟨rfl, fun x hx => ?_⟩))) (contextStart_quiet g _)
  obtain ⟨hpos, hprogress⟩ := hx.waits hw
  exact progressInv_of_transfer rfl (hpos ▸ hprogress)

theorem startBusyTimer_quiet (g : Seg) (s : State) : Quiet s (startBusyTimer g s) :=
  quiet_updSeg (segQuiet_of_engine rfl (engineQuiet_of_eq rfl rfl rfl rfl))

theorem meetBus_quiet {g : Seg} {held : Nat} {s : State} (hw : (s.engine g).state = .waitFree) : Quiet s (meetBus g held s) := by
  unfold meetBus
  split
  · exact enterRecovery_quiet g s
  · split
    · exact sendStart_quiet hw
    · split
      · exact startBusyTimer_quiet g s
      · exact quiet_refl s

/-- An update of an entry's presence alone. -/
theorem markAbsent_quiet (n : SlotId) (f : Failure) (s : State) : Quiet s (markAbsent n f s) :=
  quiet_updEntryOf fun _ => by
    split
    · exact ⟨rfl, rfl, id⟩
    · exact entryQuiet_refl _

/-- A change of one slot that keeps its state, target and segment. -/
theorem updSlot_same {s : State} {n : SlotId} {f : Slot → Slot} (hstate : (f (s.slot n)).state = (s.slot n).state)
    (htarget : (f (s.slot n)).target = (s.slot n).target) (hseg : (f (s.slot n)).segment = (s.slot n).segment) :
    SameBooks s (s.updSlot n f) := by
  refine ⟨fun m => ?_, fun m _ => ?_, fun m _ => ?_, fun _ => rfl, fun _ => rfl⟩ <;>
    by_cases hm : m = n <;> simp [hm, posted, hstate, htarget, hseg]

/-- The engine of g changes the counts of its active slot n, within the ranges of the record. -/
theorem updSlot_loosens {s : State} {g : Seg} {n : SlotId} {f : Slot → Slot} (hw : P → InHand s g)
    (ha : (s.engine g).active = some n) (hstate : ∀ x, (f x).state = x.state) (htarget : ∀ x, (f x).target = x.target)
    (hseg : ∀ x, (f x).segment = x.segment) (hr : P → CountInv s → RecordInRange (f (s.slot n))) :
    Loosens P g n s (s.updSlot n f) := by
  refine ⟨books_of_same (fun _ => rfl) fun _ => updSlot_same (hstate _) (htarget _) (hseg _), fun p c => ?_⟩
  refine ⟨fun m => ?_, fun m hm hp => ?_, fun j hj m hm => ?_, c.failureCount, c.glitchCount⟩
  · by_cases hm : m = n
    · subst hm; rw [updSlot_slot, if_pos rfl]; exact hr p c
    · rw [updSlot_slot, if_neg hm]; exact countInv_record c m
  · rw [updSlot_slot, if_neg hm] at hp ⊢; exact countInv_posted c hp
  · have hmn : m ≠ n := fun h => hj ((hw p).sole n j ha (h ▸ hm))
    rw [updSlot_slot, if_neg hmn]; exact c.progress j m hm

theorem fixAttempt_keeps {g : Seg} {n : SlotId} {s : State} (hw : P → InHand s g) (ha : (s.engine g).active = some n) :
    Keeps P s (fixAttempt g n s) := by
  have hloose : Loosens P g n s (s.updSlot n (fun x => { x with bytesAccepted := 0, readData := [] })) :=
    updSlot_loosens hw ha (fun _ => rfl) (fun _ => rfl) (fun _ => rfl) fun _ c =>
      ⟨c.failures n, c.pollsUsed n, Nat.zero_le _, Nat.zero_le _⟩
  refine ⟨books_trans hloose.toBooks (updSeg_books _ g _), fun p c => ?_⟩
  unfold fixAttempt
  refine countInv_of_looseInv (looseInv_updSeg (hloose.count p c) rfl) (fun _ => ?_) fun m hm => ?_
  · obtain ⟨hf, k, hk, hl, hpolls⟩ := countInv_posted c (inHand_posted (hw p) ha)
    rw [updSeg_slot, updSlot_slot, if_pos rfl]
    exact ⟨hf, k, hk, hl, hpolls⟩
  · rw [updSeg_engine, if_pos rfl] at hm ⊢
    obtain rfl : n = m := Option.some.inj hm
    refine ⟨fun _ => ⟨rfl, ?_⟩, fun ht => nomatch ht⟩
    simp [progressAt]

/-- fixAttempt leaves the engine in WAIT_FREE. -/
theorem fixAttempt_waits (g : Seg) (n : SlotId) (s : State) : ((fixAttempt g n s).engine g).state = .waitFree := by
  simp [fixAttempt]

theorem beginAttempt_keeps {g : Seg} {held : Nat} {s : State} (hw : P → InHand s g) : Keeps P s (beginAttempt g held s) := by
  unfold beginAttempt
  cases ha : (s.engine g).active with
  | none => exact keeps_refl s
  | some n =>
    have hp : P → posted (s.slot n) := fun p => inHand_posted (hw p) ha
    dsimp only
    cases (s.slot n).mark.status with
    | some st => exact finishSlot_keeps hp
    | none =>
      dsimp only
      cases s.notBegun g n with
      | some f =>
        refine keeps_trans (keeps_of_quiet (markAbsent_quiet n f s)) (finishSlot_keeps fun p => ?_)
        rw [markAbsent, updEntryOf_slot]; exact hp p
      | none => exact keeps_trans (fixAttempt_keeps hw ha) (keeps_of_quiet (meetBus_quiet (fixAttempt_waits g n s)))

/-! ### The end of an attempt -/

/-- The engine of g enters BACKOFF or POLL_WAIT with its slot n still within the bounds of a posted one. -/
theorem waitEngine_keeps {g : Seg} {n : SlotId} {s t : State} {f : Segment → Segment} (h : Loosens P g n s t)
    (hr : P → CountInv s → PostedInRange (t.slot n)) (hg : ∀ x, (f x).glitchCount = x.glitchCount)
    (hw : ∀ x, (f x).engine.state ≠ .waitFree) (ht : ∀ x, (f x).engine.state ≠ .transfer) : Keeps P s (t.updSeg g f) := by
  refine ⟨books_trans h.toBooks (updSeg_books t g f), fun p c => ?_⟩
  refine countInv_of_looseInv (looseInv_updSeg (h.count p c) (hg _)) (fun _ => hr p c) fun m hm => ?_
  rw [updSeg_engine, if_pos rfl]
  exact progressInv_of_rest (hw _) (ht _)

theorem enterBackoff_keeps {g : Seg} {n : SlotId} {s t : State} (h : Loosens P g n s t) (hp : P → posted (t.slot n))
    (hr : P → CountInv s → PostedInRange (t.slot n)) : Keeps P s (enterBackoff g n t) := by
  unfold enterBackoff
  cases (t.slot n).mark.status with
  | some st => exact finishSlot_of_loosens h hp
  | none => exact waitEngine_keeps h hr (fun _ => rfl) (by simp [waitEngine]) (by simp [waitEngine])

theorem enterPollWait_keeps {g : Seg} {n : SlotId} {s t : State} (h : Loosens P g n s t) (hp : P → posted (t.slot n))
    (hr : P → CountInv s → PostedInRange (t.slot n)) : Keeps P s (enterPollWait g n t) := by
  unfold enterPollWait
  cases (t.slot n).mark.status with
  | some st => exact finishSlot_of_loosens h hp
  | none => exact waitEngine_keeps h hr (fun _ => rfl) (by simp [waitEngine]) (by simp [waitEngine])

theorem quarantine_quiet (n : SlotId) (s : State) : Quiet s (quarantine n s) := by
  unfold quarantine
  split
  · exact quiet_refl s
  · refine quiet_trans (quiet_updEntryOf ?_) (raise_quiet _ _)
    exact fun _ => ⟨rfl, rfl, id⟩

@[simp] theorem quarantine_slot (n m : SlotId) (s : State) : (quarantine n s).slot m = s.slot m := by
  unfold quarantine; split <;> simp

@[simp] theorem markAbsent_slot (n m : SlotId) (f : Failure) (s : State) : (markAbsent n f s).slot m = s.slot m := by
  simp [markAbsent]

theorem countFailure_quiet (n : SlotId) (f : Failure) (s : State) : Quiet s (countFailure n f s) := by
  unfold countFailure
  split
  · exact quiet_updEntryOf fun _ => ⟨rfl, rfl, fun _ => Nat.min_le_right _ _⟩
  · exact quiet_refl s

theorem recordFailure_slot (g : Seg) (n m : SlotId) (f : Failure) (s : State) :
    (recordFailure g n f s).slot m = if m = n then { s.slot n with failures := (s.slot n).failures + 1 } else s.slot m := by
  unfold recordFailure countFailure
  split <;> simp

/-- A posted slot has at most 7 failures, so the one more that the evaluation counts is within its record (R30). -/
theorem recordFailure_loosens {g : Seg} {n : SlotId} {f : Failure} {s : State} (hw : P → InHand s g)
    (ha : (s.engine g).active = some n) : Loosens P g n s (recordFailure g n f s) := by
  have hloose : Loosens P g n s (s.updSlot n (fun x => { x with failures := x.failures + 1 })) :=
    updSlot_loosens hw ha (fun _ => rfl) (fun _ => rfl) (fun _ => rfl) fun p c =>
      ⟨Nat.succ_le_succ (countInv_posted c (inHand_posted (hw p) ha)).failures, c.pollsUsed n, c.bytesAccepted n, c.readData n⟩
  refine loosens_quiet (loosens_quiet hloose (countFailure_quiet n f _)) (quiet_updEngine ?_)
  exact engineQuiet_of_eq rfl rfl rfl rfl

/-- Only a slot whose failures stay within the retry limit, 7 at most, is attempted again (R98, R100). -/
theorem evaluateFailure_keeps {g : Seg} {f : Failure} {s : State} (hw : P → InHand s g) : Keeps P s (evaluateFailure g f s) := by
  unfold evaluateFailure
  cases ha : (s.engine g).active with
  | none => exact keeps_refl s
  | some n =>
    have hloose := recordFailure_loosens (f := f) hw ha
    have hslot := recordFailure_slot g n n f s
    rw [if_pos rfl] at hslot
    have hp : P → posted ((recordFailure g n f s).slot n) := fun p => by rw [hslot]; exact inHand_posted (hw p) ha
    simp only
    split
    · exact finishSlot_of_loosens hloose hp
    · split
      · exact finishSlot_of_loosens (loosens_quiet hloose (quarantine_quiet n _)) fun p => by rw [quarantine_slot]; exact hp p
      · split
        · exact finishSlot_of_loosens (loosens_quiet hloose (markAbsent_quiet n f _)) fun p => by rw [markAbsent_slot]; exact hp p
        · rename_i hlimit
          refine enterBackoff_keeps hloose hp fun p c => ?_
          obtain ⟨-, k, hk, hl, hpolls⟩ := countInv_posted c (inHand_posted (hw p) ha)
          have := ((recordFailure g n f s).entryOf n).retryLimit.isLt
          refine ⟨by omega, k, ?_⟩
          rw [hslot]; exact ⟨hk, hl, hpolls⟩

theorem creditTarget_quiet (n : SlotId) (s : State) : Quiet s (creditTarget n s) :=
  quiet_updEntryOf fun _ => ⟨rfl, rfl, fun _ => Nat.zero_le _⟩

/-- A posted POLL has used fewer polls than its limit, so one more is within the limit, and within 255 (R31, R103). -/
theorem comparePoll_keeps {g : Seg} {n : SlotId} {s : State} (hw : P → InHand s g) (ha : (s.engine g).active = some n)
    (hkind : Kind.ofCode (s.slot n).kind = some .poll) : Keeps P s (comparePoll g n s) := by
  have hp : P → posted (s.slot n) := fun p => inHand_posted (hw p) ha
  have hused : P → CountInv s → (s.slot n).pollsUsed < (s.slot n).pollLimit.toNat := fun p c => by
    obtain ⟨-, k, hk, -, hpolls⟩ := countInv_posted c (hp p)
    exact hpolls (Option.some.inj (hk.symm.trans hkind))
  have hloose : Loosens P g n s (s.updSlot n (fun x => { x with pollsUsed := x.pollsUsed + 1 })) :=
    updSlot_loosens hw ha (fun _ => rfl) (fun _ => rfl) (fun _ => rfl) fun p c => by
      have := hused p c
      have := (s.slot n).pollLimit.isLt
      exact ⟨c.failures n, by simp only; omega, c.bytesAccepted n, c.readData n⟩
  have hp' : P → posted ((s.updSlot n (fun x => { x with pollsUsed := x.pollsUsed + 1 })).slot n) := fun p => by
    rw [updSlot_slot, if_pos rfl]; exact hp p
  unfold comparePoll
  split
  · exact finishSlot_keeps hp
  · simp only
    split
    · exact finishSlot_of_loosens hloose hp'
    · rename_i hlimit
      rw [updSlot_slot, if_pos rfl] at hlimit
      refine enterPollWait_keeps hloose hp' fun p c => ?_
      obtain ⟨hf, k, hk, hl, -⟩ := countInv_posted c (hp p)
      rw [updSlot_slot, if_pos rfl]
      exact ⟨hf, k, hk, hl, fun _ => Nat.lt_of_not_le hlimit⟩

theorem succeed_keeps {g : Seg} {n : SlotId} {s : State} (hw : P → InHand s g) (ha : (s.engine g).active = some n) :
    Keeps P s (succeed g n s) := by
  have hslot : (creditTarget n s).slot n = s.slot n := updEntryOf_slot _ _ _ _
  have hengine : ∀ j, (creditTarget n s).engine j = s.engine j := fun _ => updEntryOf_engine _ _ _ _
  have hw' : P → InHand (creditTarget n s) g := fun p => inHand_congr (hw p) (fun _ => by rw [creditTarget, updEntryOf_slot]) fun j => by rw [hengine]
  have ha' : ((creditTarget n s).engine g).active = some n := by rw [hengine]; exact ha
  refine keeps_trans (keeps_of_quiet (creditTarget_quiet n s)) ?_
  unfold succeed
  simp only
  split
  · rename_i hk; exact comparePoll_keeps hw' ha' (by rw [hslot]; exact hk)
  · exact finishSlot_keeps fun p => inHand_posted (hw' p) ha'

/-! ### Steps on the wire and marks -/

/-- A clocked step that leaves the active slot, the state, the closing and the byte position. -/
theorem stepEngine_quiet {g : Seg} {f : Engine → Engine} {s : State}
    (h : EngineQuiet (s.engine g) { f (s.engine g) with stretchTimer := none }) : Quiet s (stepEngine g f s) :=
  quiet_updSeg (segQuiet_of_engine rfl h)

theorem closeByMark_of_loosens {g : Seg} {n : SlotId} {st : Status} {nack : Bool} {s t : State} (h : Loosens P g n s t)
    (hp : P → posted (t.slot n)) : Keeps P s (closeByMark g n st nack t) := by
  unfold closeByMark stepEngine
  refine keeps_of_complete h hp ?_ ?_ <;> exact fun _ => rfl

theorem stopRises_quiet (g : Seg) (s : State) : Quiet s (stopRises g s) :=
  quiet_trans (quiet_updSeg (segQuiet_of_eq rfl rfl)) (contextStop_quiet g _)

theorem stopRises_engine (g h : Seg) (s : State) : (stopRises g s).engine h = s.engine h := by
  simp only [stopRises, contextStop, State.engine, updCtx_seg, endPhase_seg, updSeg_seg]
  split <;> simp_all

theorem stopRises_inHand {g : Seg} {s : State} (h : InHand s g) : InHand (stopRises g s) g :=
  inHand_congr h (fun _ => by simp [stopRises, contextStop]) fun j => by rw [stopRises_engine]

theorem markTaken_keeps {g : Seg} {s : State} (hw : P → InHand s g) : Keeps P s (markTaken g s) := by
  unfold markTaken
  cases ha : (s.engine g).active with
  | none => exact keeps_refl s
  | some n =>
    have hfinish : ∀ st, Keeps P s (finishSlot g n st s) := fun _ => finishSlot_keeps fun p => inHand_posted (hw p) ha
    simp only
    split
    · exact hfinish _
    · exact hfinish _
    · exact hfinish _
    · exact keeps_refl s

/-- The sequence goes on to a byte position: the attempt is in order there when the counts of its slot are. -/
theorem goTo_of_loosens {g : Seg} {n : SlotId} {pos : BytePos} {s t : State} (h : Loosens P g n s t)
    (ht : (t.engine g).state = .transfer) (ha : (t.engine g).active = some n) (hr : P → CountInv s → PostedInRange (t.slot n))
    (hpos : P → CountInv s → progressAt (t.slot n) pos) : Keeps P s (goTo g pos t) := by
  have hstep : Keeps P s (stepEngine g (fun e => { e with pos := pos }) t) := by
    refine ⟨books_trans h.toBooks (updSeg_books _ g _), fun p c => ?_⟩
    unfold stepEngine
    refine countInv_of_looseInv (looseInv_updSeg (h.count p c) rfl) (fun _ => hr p c) fun m hm => ?_
    rw [updSeg_engine, if_pos rfl] at hm ⊢
    obtain rfl : n = m := Option.some.inj (ha.symm.trans hm)
    exact progressInv_of_transfer ht (hpos p c)
  unfold goTo
  cases pos with
  | secondAddress => exact keeps_trans hstep (keeps_of_quiet (contextStart_quiet g _))
  | none | address | writeByte | readByte | closingStop => exact hstep

end Sys2Proof.Machine
end

section
/-! SUPPORT. What the commands of the window keep of the identities, the reference counts and the counts. -/

namespace Sys2Proof.Machine

open Sys2Proof.Safety Sys2Proof.Claims

variable {P : Prop}

/-! ### How a command is carried out -/

theorem storeCode_workInv {code : BitVec 8} {s : State} (h : WorkInv s) : WorkInv (storeCode code s) :=
  ⟨h.queued, h.queuedOnce, h.listed, h.listedOnce, h.engaged, h.active⟩

theorem onWindow_keeps {f : State → State} {s : State} (h : Keeps P s (f s)) : Keeps P s (onWindow f s) := by
  unfold onWindow
  split
  · exact h
  · exact keeps_refl s

theorem record_quiet (r : Reply) : Quiet r.state r.record := by
  unfold Reply.record
  split <;> exact quiet_of_eq rfl rfl rfl

/-- A row that writes CMD keeps what its command keeps. -/
theorem runCommand_keeps {code : BitVec 8} {f : State → Reply} {s : State} (hw : P → WorkInv s)
    (h : ∀ u, (P → WorkInv u) → Keeps P u (f u).state) : Keeps P s (runCommand code f s) :=
  onWindow_keeps (keeps_trans (keeps_of_eq (t := storeCode code s) rfl rfl rfl)
    (keeps_trans (h _ fun p => storeCode_workInv (hw p)) (keeps_of_quiet (record_quiet (f (storeCode code s))))))

/-- A command with a number keeps what it keeps for each number in range; out of range it changes nothing. -/
theorem withNumber_keeps {k : Nat} {f : Fin k → State → Reply} {s : State} (h : ∀ n, Keeps P s (f n s).state) :
    Keeps P s (withNumber k f s).state := by
  unfold withNumber
  split
  · exact h _
  · exact keeps_refl s

/-! ### ALLOCATE, DISCARD, RETIRE and the marks -/

/-- A change of a slot that is posted neither before nor after keeps the books, and the counts when the slot stays in its ranges. -/
theorem updSlot_unposted_keeps {s : State} {n : SlotId} {f : Slot → Slot} (hw : P → WorkInv s) (hs : P → ¬ posted (s.slot n))
    (ht : P → ¬ posted (f (s.slot n))) (hr : CountInv s → RecordInRange (f (s.slot n))) : Keeps P s (s.updSlot n f) := by
  have hne : P → ∀ m, posted (s.slot m) → m ≠ n := fun p m hm h => hs p (h ▸ hm)
  refine ⟨books_of_same (fun _ => rfl) fun p => ⟨fun m => ?_, fun m hm => ?_, fun m hm => ?_, fun _ => rfl, fun _ => rfl⟩, fun p c => ?_⟩
  · by_cases hm : m = n
    · subst hm; rw [updSlot_slot, if_pos rfl]; exact iff_of_false (ht p) (hs p)
    · rw [updSlot_slot, if_neg hm]
  · rw [updSlot_slot, if_neg (hne p m hm)]
  · rw [updSlot_slot, if_neg (hne p m hm)]
  · refine countInv_of_units (fun m => ?_) (fun m hm => ?_) (fun g m hm => ?_) c.failureCount c.glitchCount
    · by_cases hm : m = n
      · subst hm; rw [updSlot_slot, if_pos rfl]; exact hr c
      · rw [updSlot_slot, if_neg hm]; exact countInv_record c m
    · by_cases hmn : m = n
      · subst hmn; rw [updSlot_slot, if_pos rfl] at hm; exact absurd hm (ht p)
      · rw [updSlot_slot, if_neg hmn] at hm ⊢; exact countInv_posted c hm
    · rw [updSlot_slot, if_neg (hne p m (inHand_posted (inHand_of_workInv (hw p) g) hm))]; exact c.progress g m hm

theorem allocate_keeps {s : State} (hw : P → WorkInv s) : Keeps P s (allocate s).state := by
  unfold allocate
  cases hfree : s.lowestFree with
  | none => exact keeps_refl s
  | some n =>
    have hn : (s.slot n).state = .free := by simpa using List.find?_some hfree
    dsimp only [accept]
    refine updSlot_unposted_keeps hw (fun _ => ?_) (fun _ => ?_) fun _ => ?_
    · simp [posted, hn]
    · simp [posted]
    · exact ⟨Nat.zero_le _, Nat.zero_le _, Nat.zero_le _, Nat.zero_le _⟩

theorem discard_keeps {n : SlotId} {s : State} (hw : P → WorkInv s) : Keeps P s (discard n s).state := by
  unfold discard
  split
  · rename_i hn
    dsimp only [accept]
    refine updSlot_unposted_keeps hw (fun _ => ?_) (fun _ => ?_) fun c => ?_
    · simp [posted, hn]
    · simp [posted]
    · exact ⟨c.failures n, c.pollsUsed n, c.bytesAccepted n, c.readData n⟩
  · exact keeps_refl s

/-- The slot of the head record is DONE, and becomes FREE with its fields kept (R40). -/
theorem retire_keeps {s : State} (hw : P → WorkInv s) : Keeps P s (retire s).state := by
  unfold retire
  cases hq : s.cq.queue with
  | nil => exact keeps_refl s
  | cons n rest =>
    have hdone : P → (s.slot n).state = .done := fun p => ((hw p).queued n).mp (by simp [hq])
    exact keeps_trans
      (updSlot_unposted_keeps (f := fun x => { x with state := .free }) hw (fun p => by simp [posted, hdone p]) (fun _ => by simp [posted])
        fun c => ⟨c.failures n, c.pollsUsed n, c.bytesAccepted n, c.readData n⟩)
      (keeps_of_eq rfl rfl rfl)

theorem setMark_quiet (k : Mark) (n : SlotId) (s : State) : Quiet s (setMark k n s) := quiet_updSlot fun _ => rfl

theorem setMark_state (k : Mark) (n m : SlotId) (s : State) : ((setMark k n s).slot m).state = (s.slot m).state := by
  by_cases hm : m = n <;> simp [setMark, hm]

theorem abort_keeps {n : SlotId} {s : State} (hw : P → WorkInv s) : Keeps P s (abort n s).state := by
  have hmark := setMark_quiet .aborted n s
  have htaken : Keeps P s (markTaken (s.slot n).segment (setMark .aborted n s)) :=
    keeps_trans (keeps_of_quiet hmark) (markTaken_keeps fun p =>
      inHand_congr (inHand_of_workInv (hw p) _) (fun m => setMark_state .aborted n m s) fun _ => rfl)
  have hset : Keeps P s
      (if (s.slot n).state = .active then markTaken (s.slot n).segment (setMark .aborted n s) else setMark .aborted n s) := by
    split
    · exact htaken
    · exact keeps_of_quiet hmark
  have hunset : Keeps P s (if (s.slot n).mark = .none then accept
      (if (s.slot n).state = .active then markTaken (s.slot n).segment (setMark .aborted n s) else setMark .aborted n s) n.val
      else accept s n.val).state := by
    split
    · exact hset
    · exact keeps_refl s
  unfold abort
  split
  · exact hunset
  · exact hunset
  all_goals exact keeps_refl s

/-- A row of marks is quiet, and leaves the states of the slots and the engines. -/
theorem foldl_setMark (k : Mark) (ns : List SlotId) (s : State) :
    Quiet s (ns.foldl (fun t n => setMark k n t) s) ∧
      (∀ m, ((ns.foldl (fun t n => setMark k n t) s).slot m).state = (s.slot m).state) ∧
      ∀ g, (ns.foldl (fun t n => setMark k n t) s).engine g = s.engine g := by
  induction ns generalizing s with
  | nil => exact ⟨quiet_refl s, fun _ => rfl, fun _ => rfl⟩
  | cons n ns ih =>
    obtain ⟨hquiet, hstate, hengine⟩ := ih (setMark k n s)
    exact ⟨quiet_trans (setMark_quiet k n s) hquiet, fun m => (hstate m).trans (setMark_state k n m s), hengine⟩

theorem flushSegment_keeps {g : Seg} {s : State} (hw : P → WorkInv s) : Keeps P s (flushSegment g s).state := by
  obtain ⟨hquiet, hstate, hengine⟩ := foldl_setMark .flushed (s.unmarked g) s
  exact keeps_trans (keeps_of_quiet hquiet)
    (markTaken_keeps fun p => inHand_congr (inHand_of_workInv (hw p) g) hstate fun j => by rw [hengine])

/-! ### POST -/

/-- What a slot that passes the checks of POST has (R35). -/
structure Passes (s : State) (n : SlotId) (g : Seg) (j : TargetId) (k : Kind) : Prop where
  staged : (s.slot n).state = .staged
  index : s.targetIndex n = some j
  valid : (s.target j).valid = true
  segment : (s.target j).segment.toNat = g.val
  kind : Kind.ofCode (s.slot n).kind = some k
  lengths : lengthsFit k (s.slot n).writeCount.toNat (s.slot n).readCount.toNat = true
  polls : k = .poll → (s.slot n).pollLimit ≠ 0

theorem segOf_eq_some {field : BitVec 3} {g : Seg} (h : segOf field = some g) : field.toNat = g.val := by
  unfold segOf at h
  split at h
  · exact congrArg Fin.val (Option.some.inj h)
  · cases h

/-- The checks of R35 name what they have checked. -/
theorem passes_of_postFault {s : State} {n : SlotId} {g : Seg} (hs : (s.slot n).state = .staged) (hf : s.postFault n = none)
    (hg : segOf (s.entryOf n).segment = some g) : ∃ j k, Passes s n g j k := by
  unfold State.postFault at hf
  dsimp only at hf
  split at hf
  · cases hf
  · rename_i k hk
    split at hf
    · cases hf
    · rename_i htarget
      split at hf
      · cases hf
      · rename_i hlengths
        split at hf
        · cases hf
        · rename_i hpoll
          simp only [Bool.or_eq_true, not_or, Bool.not_eq_true, Option.isNone_eq_false_iff, Option.isSome_iff_exists,
            Bool.not_eq_false'] at htarget
          obtain ⟨⟨⟨j, hj⟩, hvalid⟩, -⟩ := htarget
          rw [entryOf_eq hj] at hvalid hg
          exact ⟨j, k, hs, hj, hvalid, segOf_eq_some hg, hk, by simpa using hlengths, fun h0 hl => hpoll ⟨h0, .inr hl⟩⟩

theorem latchPost_slot (n m : SlotId) (g : Seg) (s : State) :
    (latchPost n g s).slot m = if m = n then postedSlot (s.slot n) g else s.slot m := by
  rw [latchPost, updEntryOf_slot, updSlot_slot]; rfl

theorem latchPost_targetIndex (n m : SlotId) (g : Seg) (s : State) : (latchPost n g s).targetIndex m = s.targetIndex m := by
  have h : ((latchPost n g s).slot m).target = (s.slot m).target := by rw [latchPost_slot]; split <;> simp_all [postedSlot]
  simp only [State.targetIndex, h]

theorem latchPost_target (n : SlotId) (g : Seg) (s : State) (k : TargetId) :
    (latchPost n g s).target k =
      if s.targetIndex n = some k then { s.target k with refCount := (s.target k).refCount + 1 } else s.target k := by
  have h : (s.updSlot n (fun x => postedSlot x g)).targetIndex n = s.targetIndex n := by
    simp only [State.targetIndex, updSlot_slot, if_pos]; rfl
  exact (updEntryOf_target (s.updSlot n (fun x => postedSlot x g)) n _ k).trans (by rw [h]; rfl)

theorem latchPost_seg (n : SlotId) (g h : Seg) (s : State) : (latchPost n g s).seg h = s.seg h := by
  rw [latchPost, updEntryOf_seg, updSlot_seg]

theorem latchPost_identity (n : SlotId) (g : Seg) (s : State) (k : TargetId) :
    ((latchPost n g s).target k).identity = (s.target k).identity := by
  rw [latchPost_target]; split <;> rfl

theorem latchPost_failureCount (n : SlotId) (g : Seg) (s : State) (k : TargetId) :
    ((latchPost n g s).target k).failureCount = (s.target k).failureCount := by
  rw [latchPost_target]; split <;> rfl

/-- The counts of a slot that a POST has latched are 0. -/
theorem postedSlot_record (x : Slot) (g : Seg) : RecordInRange (postedSlot x g) :=
  ⟨Nat.zero_le _, Nat.zero_le _, Nat.zero_le _, Nat.zero_le _⟩

/-- A POST that is completed at once: the reference count is back, and no slot more is posted (R38). -/
theorem completePost_keeps {n : SlotId} {g : Seg} {st : Status} {s : State} (hw : P → WorkInv s)
    (hs : (s.slot n).state = .staged) : Keeps P s (completeSlot n st (latchPost n g s)) := by
  have hn : ¬ posted (s.slot n) := by simp [posted, hs]
  have hn' : ¬ posted ((completeSlot n st (latchPost n g s)).slot n) := completeSlot_not_posted n st _
  have hother : ∀ m, m ≠ n → (completeSlot n st (latchPost n g s)).slot m = s.slot m := fun m hm => by
    rw [completeSlot_slot, if_neg hm, latchPost_slot, if_neg hm]
  have hne : ∀ m, posted (s.slot m) → m ≠ n := fun m hm h => hn (h ▸ hm)
  have hid : ∀ k, ((completeSlot n st (latchPost n g s)).target k).identity = (s.target k).identity := fun k =>
    (completeSlot_identity n st _ k).trans (latchPost_identity n g s k)
  refine ⟨books_of_same hid fun _ => ⟨fun m => ?_, fun m hm => ?_, fun m hm => ?_, hid, fun k => ?_⟩, fun p c => ?_⟩
  · by_cases hm : m = n
    · subst hm; exact iff_of_false hn' hn
    · rw [hother m hm]
  · rw [hother m (hne m hm)]
  · rw [hother m (hne m hm)]
  · rw [completeSlot_target, latchPost_targetIndex, latchPost_target]
    split <;> simp
  · refine countInv_of_units (fun m => ?_) (fun m hm => ?_) (fun j m hm => ?_) (fun k => ?_) (fun j => ?_)
    · by_cases hm : m = n
      · subst hm
        exact completeSlot_record (by rw [latchPost_slot, if_pos rfl]; exact postedSlot_record _ g)
      · rw [hother m hm]; exact countInv_record c m
    · have hmn : m ≠ n := by rintro rfl; exact hn' hm
      rw [hother m hmn] at hm ⊢; exact countInv_posted c hm
    · have he : (completeSlot n st (latchPost n g s)).engine j = s.engine j := by
        rw [completeSlot_engine, State.engine, latchPost_seg]; rfl
      rw [he] at hm ⊢
      rw [hother m (hne m (inHand_posted (inHand_of_workInv (hw p) j) hm))]
      exact c.progress j m hm
    · rw [completeSlot_failureCount, latchPost_failureCount]; exact c.failureCount k
    · rw [completeSlot_seg, latchPost_seg]; exact c.glitchCount j

/-- The state of a POST that joins the list of g. -/
def queuePost (n : SlotId) (g : Seg) (s : State) : State :=
  ((latchPost n g s).updSlot n (fun x => { x with state := .pending })).updSeg g (fun x => { x with list := x.list ++ [n] })

theorem queuePost_slot (n m : SlotId) (g : Seg) (s : State) :
    (queuePost n g s).slot m = if m = n then { postedSlot (s.slot n) g with state := .pending } else s.slot m := by
  rw [queuePost, updSeg_slot, updSlot_slot, latchPost_slot, latchPost_slot]
  by_cases hm : m = n <;> simp [hm]

/-- A POST that joins the list of its segment: one slot more is posted and names the entry, whose reference count has risen (R37). -/
theorem queuePost_reference {n : SlotId} {g : Seg} {s : State} {j : TargetId} {k : Kind} (h : Passes s n g j k) (r : ReferenceInv s) :
    ReferenceInv (queuePost n g s) := by
  have hn : ¬ posted (s.slot n) := by simp [posted, h.staged]
  have hslot : (queuePost n g s).slot n = { postedSlot (s.slot n) g with state := .pending } := by rw [queuePost_slot, if_pos rfl]
  have hother : ∀ m, m ≠ n → (queuePost n g s).slot m = s.slot m := fun m hm => by rw [queuePost_slot, if_neg hm]
  have hindex : ∀ m, (queuePost n g s).targetIndex m = s.targetIndex m := fun m => by
    have ht : ((queuePost n g s).slot m).target = (s.slot m).target := by rw [queuePost_slot]; split <;> simp_all [postedSlot]
    simp only [State.targetIndex, ht]
  have htarget : ∀ i, (queuePost n g s).target i = (latchPost n g s).target i := fun _ => rfl
  have hbefore : ∀ i, s.names i n = false := fun i => Bool.eq_false_iff.mpr fun hi => hn (names_iff.mp hi).1
  have hnames : ∀ i m, m ≠ n → (queuePost n g s).names i m = s.names i m := fun i m hm => by
    simp only [State.names, hother m hm]
  have hposted : posted ((queuePost n g s).slot n) := by rw [hslot]; exact .inl rfl
  constructor
  · intro i
    rw [htarget, latchPost_target]
    split
    · rename_i hi
      have := postedCount_succ (names_iff.mpr ⟨hposted, (hindex n).trans hi⟩) (hbefore i) (hnames i)
      have := r.counted i
      simp only; omega
    · rename_i hi
      rw [r.counted i]
      refine (postedCount_congr fun m => ?_).symm
      by_cases hm : m = n
      · subst hm
        rw [hbefore i]
        exact Bool.eq_false_iff.mpr fun hc => hi ((hindex m).symm.trans (names_iff.mp hc).2)
      · exact hnames i m hm
  · intro m hm
    have hvalid : ∀ i, ((queuePost n g s).target i).valid = (s.target i).valid := fun i =>
      congrArg Identity.valid (latchPost_identity n g s i)
    have hseg : ∀ i, ((queuePost n g s).target i).segment = (s.target i).segment := fun i =>
      congrArg Identity.segment (latchPost_identity n g s i)
    by_cases hmn : m = n
    · subst hmn
      refine ⟨j, (hindex m).trans h.index, (hvalid j).trans h.valid, ?_⟩
      rw [hseg, hslot]; exact h.segment
    · rw [hother m hmn] at hm ⊢
      obtain ⟨i, hi, hv, hsegment⟩ := r.named m hm
      exact ⟨i, (hindex m).trans hi, (hvalid i).trans hv, by rw [hseg]; exact hsegment⟩

theorem queuePost_count {n : SlotId} {g : Seg} {s : State} {j : TargetId} {k : Kind} (hw : WorkInv s) (h : Passes s n g j k)
    (c : CountInv s) : CountInv (queuePost n g s) := by
  have hn : ¬ posted (s.slot n) := by simp [posted, h.staged]
  refine countInv_of_units (fun m => ?_) (fun m hm => ?_) (fun i m hm => ?_) (fun i => ?_) (fun i => ?_)
  · rw [queuePost_slot]; split
    · exact ⟨Nat.zero_le _, Nat.zero_le _, Nat.zero_le _, Nat.zero_le _⟩
    · exact countInv_record c m
  · rw [queuePost_slot] at hm ⊢
    split at hm
    · rename_i hmn
      rw [if_pos hmn]
      refine ⟨Nat.zero_le _, k, h.kind, h.lengths, fun hk => ?_⟩
      have hlimit := h.polls hk
      have : (s.slot n).pollLimit.toNat ≠ 0 := fun h0 => hlimit (BitVec.eq_of_toNat_eq h0)
      exact Nat.pos_of_ne_zero this
    · rename_i hmn
      rw [if_neg hmn]; exact countInv_posted c hm
  · have he : (queuePost n g s).engine i = s.engine i := by
      rw [queuePost, updSeg_engine, updSlot_seg, updSlot_engine, State.engine, latchPost_seg, latchPost_seg]
      split
      · rename_i hi; rw [hi]; rfl
      · rfl
    rw [he] at hm ⊢
    have hmn : m ≠ n := fun h => hn (h ▸ inHand_posted (inHand_of_workInv hw i) hm)
    rw [queuePost_slot, if_neg hmn]
    exact c.progress i m hm
  · exact (latchPost_failureCount n g s i).symm ▸ c.failureCount i
  · have hg : ((queuePost n g s).seg i).glitchCount = (s.seg i).glitchCount := by
      rw [queuePost, updSeg_seg, updSlot_seg, updSlot_seg, latchPost_seg, latchPost_seg]
      split
      · rename_i hi; rw [hi]
      · rfl
    rw [hg]; exact c.glitchCount i

theorem acceptPost_keeps {n : SlotId} {g : Seg} {s : State} {j : TargetId} {k : Kind} (hw : P → WorkInv s) (h : Passes s n g j k) :
    Keeps P s (acceptPost n g s) := by
  unfold acceptPost
  dsimp only
  split
  · exact completePost_keeps hw h.staged
  · exact ⟨⟨identityInv_congr (latchPost_identity n g s), fun _ => queuePost_reference h⟩, fun p => queuePost_count (hw p) h⟩

theorem post_keeps {n : SlotId} {s : State} (hw : P → WorkInv s) : Keeps P s (post n s).state := by
  unfold post
  split
  · rename_i hs
    cases hf : s.postFault n with
    | some f =>
      dsimp only [refuse]
      refine keeps_of_quiet (quiet_updSlot ?_)
      exact fun _ => rfl
    | none =>
      dsimp only
      cases hg : segOf (s.entryOf n).segment with
      | none => exact keeps_refl s
      | some g =>
        obtain ⟨j, k, h⟩ := passes_of_postFault hs hf hg
        exact acceptPost_keeps hw h
  · exact keeps_refl s

/-! ### The mailbox commands -/

theorem updBox_quiet (s : State) (m : BoxId) (f : Mailbox → Mailbox) : Quiet s (s.updBox m f) := quiet_of_eq rfl rfl rfl

theorem serveFill_quiet (g : Seg) (s : State) : Quiet s (serveFill g s) := quiet_trans (quiet_updCtx s g _) (raise_quiet _ _)

theorem releaseInbound_quiet (m : BoxId) (s : State) : Quiet s (releaseInbound m s).state := by
  unfold releaseInbound
  split
  · exact quiet_of_eq rfl rfl rfl
  · exact quiet_refl s
  · exact quiet_refl s

theorem commitOutbound_quiet (m : BoxId) (s : State) : Quiet s (commitOutbound m s).state := by
  have hcommit : Quiet s (commitBytes m s.argLength s) := updBox_quiet s m _
  unfold commitOutbound
  split
  · exact quiet_refl s
  · split
    · dsimp only [accept]
      split
      · exact quiet_trans hcommit (quiet_trans (updBox_quiet _ m _) (quiet_updCtx _ _ _))
      · exact hcommit
    · exact quiet_refl s

theorem cancelOutbound_quiet (m : BoxId) (s : State) : Quiet s (cancelOutbound m s).state := by
  unfold cancelOutbound
  split
  · exact quiet_of_eq rfl rfl rfl
  · exact quiet_refl s
  · cases s.holder m with
    | some g => exact serveFill_quiet g s
    | none => exact quiet_refl s

/-! ### The commands on segments and targets -/

/-- A row of completions of posted slots, each once. -/
theorem foldl_completeSlot_keeps {st : Status} (ns : List SlotId) {s : State} (honce : P → ns.Nodup)
    (hp : P → ∀ n ∈ ns, posted (s.slot n)) : Keeps P s (ns.foldl (fun t n => completeSlot n st t) s) := by
  induction ns generalizing s with
  | nil => exact keeps_refl s
  | cons n ns ih =>
    refine keeps_trans (completeSlot_keeps fun p => hp p n List.mem_cons_self) (ih (fun p => (List.nodup_cons.mp (honce p)).2) ?_)
    intro p m hm
    have hmn : m ≠ n := fun h => (List.nodup_cons.mp (honce p)).1 (h ▸ hm)
    rw [completeSlot_slot, if_neg hmn]
    exact hp p m (List.mem_cons_of_mem n hm)

theorem resetList_keeps {g : Seg} {s : State} (honce : P → (s.seg g).list.Nodup) (hp : P → ∀ n ∈ (s.seg g).list, posted (s.slot n)) :
    Keeps P s (resetList g s) :=
  keeps_trans (foldl_completeSlot_keeps _ honce hp) (keeps_of_quiet (quiet_updSeg (segQuiet_of_eq rfl rfl)))

/-- A slot that is not the active one stays as it is when the active slot of g completes. -/
theorem completeActive_slot {g : Seg} {n : SlotId} {st : Status} {s : State} (h : (s.engine g).active ≠ some n) :
    (completeActive g st s).slot n = s.slot n := by
  unfold completeActive
  cases ha : (s.engine g).active with
  | none => rfl
  | some m =>
    dsimp only
    rw [completeSlot_slot, if_neg (by rintro rfl; exact h ha)]

/-- The active slot and then the slots of the list complete, each posted until its turn (R144). -/
theorem clearSegment_keeps {g : Seg} {s : State} (hw : P → WorkInv s) : Keeps P s (clearSegment g s) := by
  have hlist : ((idleEngine g (completeActive g .reset (releaseLines g s))).seg g).list = (s.seg g).list := by
    simp [releaseLines]
  have hslot : P → ∀ n ∈ (s.seg g).list, posted ((idleEngine g (completeActive g .reset (releaseLines g s))).slot n) := by
    intro p n hn
    have hpending := (((hw p).listed g n).mp hn).1
    have hother : ((releaseLines g s).engine g).active ≠ some n := by
      intro ha
      have := ((hw p).engaged g n (by simpa [releaseLines, State.engine] using ha)).1
      rw [hpending] at this; cases this
    rw [idleEngine_eq, updEngine_slot, completeActive_slot hother]
    exact .inl hpending
  refine keeps_trans (keeps_of_quiet (releaseLines_quiet g s)) ?_
  refine keeps_trans (completeActive_keeps (st := .reset) fun p => inHand_updSeg (inHand_of_workInv (hw p) g) rfl) ?_
  refine keeps_trans (keeps_of_quiet (idleEngine_quiet g _)) ?_
  refine keeps_trans (resetList_keeps (g := g) (fun p => ?_) fun p n hn => ?_) (keeps_of_quiet ?_)
  · rw [hlist]; exact (hw p).listedOnce g
  · rw [hlist] at hn; exact hslot p n hn
  · refine quiet_trans (stopQualifier_quiet g _) (quiet_trans (quiet_updSeg ?_) (endContext_quiet g _))
    exact ⟨fun _ => Nat.zero_le _, engineQuiet_refl _⟩

theorem segmentReset_keeps {g : Seg} {s : State} (hw : P → WorkInv s) : Keeps P s (segmentReset g s).state := by
  unfold segmentReset
  dsimp only [accept]
  split
  · exact clearSegment_keeps hw
  · exact keeps_trans (clearSegment_keeps hw) (keeps_of_quiet (quiet_trans (enterState_quiet g _ _ _) (settleIfPowered_quiet g _)))

theorem closeForOffline_quiet (g : Seg) (e : Engine) (s : State) : Quiet s (closeForOffline g e s) := by
  unfold closeForOffline
  split
  · exact quiet_updSeg (segQuiet_of_engine rfl (.inl rfl))
  · exact quiet_trans (releaseLines_quiet g s) (idleEngine_quiet g _)

theorem offline_keeps {g : Seg} {s : State} (hw : P → WorkInv s) : Keeps P s (offline g s).state := by
  have hworking : Keeps P s (endContext g (enterState g .offline s.argMode
      (closeForOffline g (s.engine g) (completeActive g .segmentDown (stopQualifier g s))))) := by
    refine keeps_trans (keeps_of_quiet (stopQualifier_quiet g s)) ?_
    refine keeps_trans (completeActive_keeps (st := .segmentDown) fun p => inHand_updSeg (inHand_of_workInv (hw p) g) rfl)
      (keeps_of_quiet ?_)
    exact quiet_trans (closeForOffline_quiet g _ _) (quiet_trans (enterState_quiet g _ _ _) (endContext_quiet g _))
  have hdown : Keeps P s (enterState g .offline s.argMode (stopQualifier g s)) :=
    keeps_of_quiet (quiet_trans (stopQualifier_quiet g s) (enterState_quiet g _ _ _))
  unfold offline
  cases (s.seg g).state with
  | offline =>
    dsimp only [accept]
    refine keeps_of_quiet (quiet_updSeg ?_)
    exact segQuiet_of_eq rfl rfl
  | up | recovering => exact hworking
  | dark | settling | faulted => exact hdown

theorem online_quiet (g : Seg) (s : State) : Quiet s (online g s).state := by
  unfold online
  split
  · exact quiet_trans (releaseLines_quiet g s) (quiet_trans (idleEngine_quiet g _)
      (quiet_trans (enterState_quiet g _ _ _) (settleIfPowered_quiet g _)))
  · exact quiet_refl s

theorem readmit_quiet (k : TargetId) (s : State) : Quiet s (readmit k s).state := by
  unfold readmit
  split
  · dsimp only [accept]
    refine quiet_updTarget ?_
    exact fun _ => ⟨rfl, rfl, fun _ => Nat.zero_le _⟩
  · exact quiet_refl s

end Sys2Proof.Machine
end

section
/-! SUPPORT. What the events of the wires, the timers and the power keep of the identities, the reference counts and the counts. -/

namespace Sys2Proof.Machine

open Sys2Proof.Safety Sys2Proof.Claims

variable {P : Prop}

theorem onWire_keeps {f : State → State} {s : State} (h : Keeps P s (f s)) : Keeps P s (onWire f s) := by
  unfold onWire
  split
  · exact h
  · exact keeps_refl s

theorem onWire_quiet {f : State → State} {s : State} (h : Quiet s (f s)) : Keeps P s (onWire f s) := onWire_keeps (keeps_of_quiet h)

/-- An event that is taken under a condition and else leaves the state. -/
theorem quiet_if {c : Prop} [Decidable c] {s t : State} (h : c → Quiet s t) : Quiet s (if c then t else s) := by
  split
  · rename_i hc; exact h hc
  · exact quiet_refl s

theorem keeps_if {c : Prop} [Decidable c] {s t : State} (h : c → Keeps P s t) : Keeps P s (if c then t else s) := by
  split
  · rename_i hc; exact h hc
  · exact keeps_refl s

/-- The row of an outcome goes on to a state, and keeps the books and the counts. -/
def NextKeeps (P : Prop) (s : State) (o : Host.Outcome State Fault Refusal) : Prop := ∃ t : State, o = .next t ∧ Keeps P s t

/-! ### Remote transfers -/

theorem becomeBusy_quiet (x : Segment) : EngineQuiet x.engine (becomeBusy x) := by
  unfold becomeBusy
  split
  · exact engineQuiet_of_eq rfl rfl rfl rfl
  · exact engineQuiet_refl _

theorem seeStart_quiet (g : Seg) (s : State) : Quiet s (seeStart g s) := by
  refine quiet_if fun _ => ?_
  have hseen : Quiet s (s.updSeg g (fun x => { x with known := true, sclHigh := true, sdaHigh := false, engine := becomeBusy x })) :=
    quiet_updSeg (segQuiet_of_engine rfl (becomeBusy_quiet _))
  dsimp only
  split
  · exact quiet_trans hseen (contextStart_quiet g _)
  · exact hseen

theorem seeStop_quiet (g : Seg) (s : State) : Quiet s (seeStop g s) := by
  refine quiet_if fun _ => ?_
  have hseen : Quiet s (s.updSeg g (fun x => { x with
      known := false, sclHigh := true, sdaHigh := true
      engine := { x.engine with busyTimer := none } })) :=
    quiet_updSeg (segQuiet_of_engine rfl (engineQuiet_of_eq rfl rfl rfl rfl))
  dsimp only
  split
  · exact quiet_trans hseen (contextStop_quiet g _)
  · exact hseen

theorem refuseAddress_quiet (g : Seg) (s : State) : Quiet s (refuseAddress g s) :=
  quiet_trans (quiet_updCtx s g _) (raise_quiet _ _)

theorem answerWrite_quiet (g : Seg) (e : EntryId) (s : State) : Quiet s (answerWrite g e s) := by
  unfold answerWrite
  dsimp only
  split
  · exact quiet_trans (updBox_quiet s _ _) (quiet_updCtx _ g _)
  · exact refuseAddress_quiet g s

theorem answerRead_quiet (g : Seg) (e : EntryId) (s : State) : Quiet s (answerRead g e s) := by
  unfold answerRead
  dsimp only
  split
  · exact quiet_trans (updBox_quiet s _ _) (quiet_updCtx _ g _)
  · exact refuseAddress_quiet g s
  · split
    · exact quiet_updCtx s g _
    · exact refuseAddress_quiet g s

theorem evaluateAddress_quiet (g : Seg) (b : Byte) (s : State) : Quiet s (evaluateAddress g b s) := by
  unfold evaluateAddress
  split
  · exact quiet_updCtx s g _
  · split
    · exact answerWrite_quiet g _ s
    · exact answerRead_quiet g _ s

theorem receiveByte_quiet (g : Seg) (m : BoxId) (b : Byte) (s : State) : Quiet s (receiveByte g m b s) := by
  unfold receiveByte
  split
  · exact quiet_trans (updBox_quiet s m _) (quiet_updCtx _ g _)
  · split
    · exact quiet_updCtx s g _
    · exact quiet_trans (quiet_updCtx s g _) (raise_quiet _ _)

theorem sendByte_quiet (g : Seg) (ack : Bool) (s : State) : Quiet s (sendByte g ack s) := by
  unfold sendByte
  dsimp only
  split
  · exact quiet_updCtx s g _
  · split
    · exact quiet_updCtx s g _
    · exact quiet_trans (quiet_updCtx s g _) (raise_quiet _ _)

theorem execRemoteStart_keeps (g : Seg) (s : State) : NextKeeps P s (execRemoteStart g s) := ⟨_, rfl, onWire_quiet (seeStart_quiet g s)⟩

theorem execRemoteRepeatedStart_keeps (g : Seg) (s : State) : NextKeeps P s (execRemoteRepeatedStart g s) :=
  ⟨_, rfl, onWire_quiet (seeStart_quiet g s)⟩

theorem execRemoteStop_keeps (g : Seg) (s : State) : NextKeeps P s (execRemoteStop g s) := ⟨_, rfl, onWire_quiet (seeStop_quiet g s)⟩

theorem execRemoteAddressByte_keeps (g : Seg) (b : Byte) (s : State) : NextKeeps P s (execRemoteAddressByte g b s) :=
  ⟨_, rfl, onWire_quiet (quiet_if fun _ => evaluateAddress_quiet g b s)⟩

theorem execRemoteWriteByte_keeps (g : Seg) (b : Byte) (s : State) : NextKeeps P s (execRemoteWriteByte g b s) :=
  ⟨_, rfl, onWire_quiet (quiet_if fun _ => receiveByte_quiet g _ b s)⟩

theorem execRemoteReadByte_keeps (g : Seg) (ack : Bool) (s : State) : NextKeeps P s (execRemoteReadByte g ack s) :=
  ⟨_, rfl, onWire_quiet (quiet_if fun _ => sendByte_quiet g ack s)⟩

theorem execHoldTimerExpiry_keeps (g : Seg) (s : State) : NextKeeps P s (execHoldTimerExpiry g s) :=
  ⟨_, rfl, onWire_quiet (quiet_if fun _ => serveFill_quiet g s)⟩

/-! ### The dispatch -/

/-- The head of the list becomes the active slot of an idle engine: it stays posted, and no other engine has it. -/
theorem promoted_keeps {g : Seg} {n : SlotId} {s : State} {f : Segment → Segment} (hw : P → WorkInv s)
    (hn : P → (s.slot n).state = .pending) (hg : ∀ x, (f x).glitchCount = x.glitchCount)
    (he : ∀ x, (f x).engine = { active := some n }) :
    Keeps P s ((s.updSlot n (fun x => { x with state := .active })).updSeg g f) ∧
      (P → InHand ((s.updSlot n (fun x => { x with state := .active })).updSeg g f) g) := by
  have hother : P → ∀ j, (s.engine j).active ≠ some n := fun p j hj => by
    have := ((hw p).engaged j n hj).1
    rw [hn p] at this; cases this
  have hslot : ∀ m, ((s.updSlot n (fun x => { x with state := .active })).updSeg g f).slot m =
      if m = n then { s.slot n with state := .active } else s.slot m := fun m =>
    updSlot_slot s n (fun x => { x with state := .active }) m
  have hengine : ∀ j, ((s.updSlot n (fun x => { x with state := .active })).updSeg g f).engine j =
      if j = g then { active := some n } else s.engine j := fun j => by
    rw [updSeg_engine, he, updSlot_engine]
  refine ⟨⟨books_of_same (fun _ => rfl) fun p => ⟨fun m => ?_, fun m _ => ?_, fun m _ => ?_, fun _ => rfl, fun _ => rfl⟩,
    fun p c => countInv_of_units (fun m => ?_) (fun m hm => ?_) (fun j m hm => ?_) c.failureCount (fun j => ?_)⟩, fun p => ⟨?_, ?_⟩⟩
  · by_cases hm : m = n
    · subst hm; rw [hslot, if_pos rfl]; exact iff_of_true (.inr rfl) (.inl (hn p))
    · rw [hslot, if_neg hm]
  · rw [hslot]; split <;> simp_all
  · rw [hslot]; split <;> simp_all
  · rw [hslot]; split
    · exact ⟨c.failures n, c.pollsUsed n, c.bytesAccepted n, c.readData n⟩
    · exact countInv_record c m
  · rw [hslot] at hm ⊢
    split at hm
    · rename_i hmn
      obtain ⟨hf, k, hk, hl, hpolls⟩ := countInv_posted c (.inl (hn p))
      rw [if_pos hmn]; exact ⟨hf, k, hk, hl, hpolls⟩
    · rename_i hmn
      rw [if_neg hmn]; exact countInv_posted c hm
  · rw [hengine] at hm ⊢
    split at hm
    · rename_i hj
      rw [if_pos hj]; exact progressInv_of_rest (by simp) (by simp)
    · rename_i hj
      rw [if_neg hj, hslot, if_neg (by rintro rfl; exact hother p j hm)]; exact c.progress j m hm
  · rw [updSeg_seg]; split
    · rw [hg]; exact c.glitchCount g
    · exact c.glitchCount j
  · intro m hm
    rw [hengine, if_pos rfl] at hm
    obtain rfl : n = m := Option.some.inj hm
    rw [hslot, if_pos rfl]
  · intro m j hm hj
    rw [hengine, if_pos rfl] at hm
    obtain rfl : n = m := Option.some.inj hm
    rw [hengine] at hj
    split at hj
    · assumption
    · exact absurd hj (hother p j)

theorem promote_keeps {g : Seg} {n : SlotId} {held : Nat} {s : State} (hw : P → WorkInv s) (hn : P → (s.slot n).state = .pending) :
    Keeps P s (promote g n held s) := by
  obtain ⟨hkeeps, hhand⟩ := promoted_keeps (g := g)
    (f := fun x => { x with list := x.list.tail, engine := { active := some n } }) hw hn (fun _ => rfl) fun _ => rfl
  exact keeps_trans hkeeps (beginAttempt_keeps hhand)

theorem completeHead_keeps {g : Seg} {n : SlotId} {st : Status} {s : State} (hn : P → (s.slot n).state = .pending) :
    Keeps P s (completeHead g n st s) :=
  keeps_trans (keeps_of_quiet (quiet_updSeg (f := fun x => { x with list := x.list.tail }) (segQuiet_of_eq rfl rfl)))
    (completeSlot_keeps fun p => .inl (hn p))

theorem evaluateHead_keeps {g : Seg} {held : Nat} {n : SlotId} {s : State} (hw : P → WorkInv s)
    (hn : P → (s.slot n).state = .pending) : Keeps P s (evaluateHead g held n s) := by
  unfold evaluateHead
  split
  · exact completeHead_keeps hn
  · split
    · exact completeHead_keeps hn
    · split
      · exact completeHead_keeps hn
      · exact keeps_if fun _ => promote_keeps hw hn

theorem execHeadEvaluation_keeps {g : Seg} {held : Nat} {s : State} (hw : P → WorkInv s) :
    NextKeeps P s (execHeadEvaluation g held s) := by
  refine ⟨_, rfl, onWire_keeps ?_⟩
  split
  · rename_i n _ hlist _
    exact evaluateHead_keeps hw fun p => (((hw p).listed g n).mp (by rw [hlist]; exact List.mem_cons_self)).1
  · exact keeps_refl s

/-! ### Waiting for the bus -/

theorem execEngineStart_keeps (g : Seg) (s : State) : NextKeeps P s (execEngineStart g s) :=
  ⟨_, rfl, onWire_quiet (quiet_if fun h => sendStart_quiet h.1)⟩

theorem execBusyTimerExpiry_keeps {g : Seg} {s : State} (hw : P → InHand s g) : NextKeeps P s (execBusyTimerExpiry g s) :=
  ⟨_, rfl, onWire_keeps (keeps_if fun _ => evaluateFailure_keeps hw)⟩

theorem execStuckDetected_keeps (g : Seg) (s : State) : NextKeeps P s (execStuckDetected g s) :=
  ⟨_, rfl, onWire_quiet (quiet_if fun _ => enterRecovery_quiet g s)⟩

theorem execBackoffTimerExpiry_keeps {g : Seg} {held : Nat} {s : State} (hw : P → InHand s g) :
    NextKeeps P s (execBackoffTimerExpiry g held s) :=
  ⟨_, rfl, onWire_keeps (keeps_if fun _ => beginAttempt_keeps hw)⟩

theorem execPollTimerExpiry_keeps {g : Seg} {held : Nat} {s : State} (hw : P → InHand s g) :
    NextKeeps P s (execPollTimerExpiry g held s) :=
  ⟨_, rfl, onWire_keeps (keeps_if fun _ => beginAttempt_keeps hw)⟩

/-! ### The bytes of an attempt -/

/-- Where i write bytes have been accepted, the next step is within the counts of the descriptor (R72 to R74). -/
theorem progressAt_stepAfterWrites {x : Slot} {i : Nat} (hbytes : x.bytesAccepted = i) (hdata : x.readData = []) :
    progressAt x (x.stepAfterWrites i) := by
  unfold Slot.stepAfterWrites
  split
  · rename_i hi; exact ⟨hi, hbytes, hdata⟩
  · split
    · rename_i hk; exact ⟨hdata, .inl hk⟩
    · rename_i hk; exact ⟨hdata, .inr (.inl hk)⟩
    · rename_i hk; exact ⟨hdata, .inr (.inr hk)⟩
    · trivial

/-- A READ calls for a byte at least (R36). -/
theorem readCount_pos {x : Slot} {k : Kind} (h : DescriptorInv x k) (hk : k = .read ∨ k = .writeRead) : 0 < x.readCount.toNat := by
  have hl := h.lengths
  rcases hk with rfl | rfl
  · have := of_decide_eq_true hl; omega
  · have := of_decide_eq_true hl; omega

/-- The step after the first address byte is within the counts of the descriptor (R72, R73). -/
theorem progressAt_stepAfterAddress {x : Slot} {k : Kind} (h : DescriptorInv x k) (ha : progressAt x .address) :
    progressAt x x.stepAfterAddress := by
  obtain ⟨hbytes, hdata⟩ := ha
  have hlength : x.readData.length = 0 := by rw [hdata]; rfl
  unfold Slot.stepAfterAddress
  split
  · rename_i hk
    have hpos := readCount_pos h (.inl (Option.some.inj (h.kind.symm.trans hk)))
    simp only [progressAt, hk]
    exact ⟨hlength, hpos⟩
  · rename_i hk
    split
    · simp only [progressAt, hk]
      exact ⟨hlength, .inl trivial⟩
    · exact progressAt_stepAfterWrites hbytes hdata
  · exact progressAt_stepAfterWrites hbytes hdata
  · exact progressAt_stepAfterWrites hbytes hdata
  · exact progressAt_stepAfterWrites hbytes hdata
  · trivial

/-- A second address byte is sent by the kinds that read after it, and the first read byte is within their counts (R72 to R74). -/
theorem progressAt_firstRead {x : Slot} {k : Kind} (h : DescriptorInv x k) (ha : progressAt x .secondAddress) :
    progressAt x (.readByte 0) := by
  obtain ⟨hdata, hkind⟩ := ha
  refine ⟨by rw [hdata]; rfl, ?_⟩
  rcases hkind with hk | hk | hk <;> simp only [hk, true_or]
  exact readCount_pos h (.inr (Option.some.inj (h.kind.symm.trans hk)))

/-- A write byte comes at an index below the write count, 32 at most (R36). -/
theorem writeCount_le {x : Slot} {k : Kind} (h : DescriptorInv x k) : x.writeCount.toNat ≤ 32 := by
  have hl := h.lengths
  cases k <;> have := of_decide_eq_true hl <;> omega

theorem readCount_le {x : Slot} {k : Kind} (h : DescriptorInv x k) (hk : k ≠ .blockRead) : x.readCount.toNat ≤ 32 := by
  have hl := h.lengths
  cases k with
  | blockRead => exact absurd rfl hk
  | write | read | writeRead | probe | poll => have := of_decide_eq_true hl; omega

/-- At a byte position where a read byte comes next, fewer than 32 bytes have been read (R71, R73). -/
theorem readData_lt {x : Slot} {k : Kind} {i : Nat} (h : DescriptorInv x k) (ha : progressAt x (.readByte i)) : x.readData.length < 32 := by
  obtain ⟨hlength, hat⟩ := ha
  rw [h.kind] at hat
  rw [hlength]
  cases k with
  | blockRead =>
    rcases hat with rfl | ⟨hle, hlt⟩
    · decide
    · omega
  | poll => obtain rfl : i = 0 := hat; decide
  | write | read | writeRead | probe =>
    have hi : i < x.readCount.toNat := hat
    have := readCount_le h (by simp)
    omega

/-- After a read byte that is not the last, the next is within the read count, or within the count byte of a BLOCK_READ (R71, R73). -/
theorem progressAt_nextRead {x : Slot} {k : Kind} {i : Nat} {b : Byte} (h : DescriptorInv x k) (ha : progressAt x (.readByte i))
    (hlast : x.lastRead i b = false) : progressAt { x with readData := x.readData ++ [b] } (.readByte (i + 1)) := by
  obtain ⟨hlength, hat⟩ := ha
  refine ⟨by simp [hlength], ?_⟩
  simp only [Slot.lastRead, h.kind] at hat hlast ⊢
  cases k with
  | blockRead =>
    by_cases hi : i = 0
    · subst hi
      obtain hnil : x.readData = [] := List.length_eq_zero_iff.mp hlength
      have hb : ¬ (b.toNat = 0 ∨ 32 ≤ b.toNat) := by simpa using hlast
      simp only [hnil, List.nil_append, List.headD_cons]
      omega
    · have hcount : ¬ (x.readData.headD 0).toNat ≤ i := by simpa [hi] using hlast
      obtain ⟨hle, hlt⟩ := hat.resolve_left hi
      have hhead : (x.readData ++ [b]).headD 0 = x.readData.headD 0 := by
        cases hx : x.readData with
        | nil => rw [hx] at hlength; exact absurd hlength.symm hi
        | cons => rfl
      rw [hhead]; omega
  | poll => cases hlast
  | write | read | writeRead | probe =>
    have hcount : ¬ x.readCount.toNat ≤ i + 1 := by simpa using hlast
    exact Nat.lt_of_not_le hcount

theorem afterAck_of_loosens {g : Seg} {n : SlotId} {pos : BytePos} {s t : State} (h : Loosens P g n s t)
    (ht : (t.engine g).state = .transfer) (ha : (t.engine g).active = some n) (hp : P → posted (t.slot n))
    (hr : P → CountInv s → PostedInRange (t.slot n)) (hpos : P → CountInv s → progressAt (t.slot n) pos) :
    Keeps P s (afterAck g n pos t) := by
  unfold afterAck
  split
  · exact goTo_of_loosens h ht ha hr hpos
  · split
    · exact closeByMark_of_loosens h hp
    · exact goTo_of_loosens h ht ha hr hpos

/-- What an engine sends of its attempt is within the counts, and its slot is a posted one. -/
theorem sending_inRange {s : State} {g : Seg} {n : SlotId} {pos : BytePos} (hw : P → InHand s g) (hs : Sending s g n pos) :
    (P → posted (s.slot n)) ∧ (P → CountInv s → PostedInRange (s.slot n)) ∧ (P → CountInv s → progressAt (s.slot n) pos) := by
  obtain ⟨ht, hc, ha, hpos⟩ := hs
  have hp : P → posted (s.slot n) := fun p => inHand_posted (hw p) ha
  exact ⟨hp, fun p c => countInv_posted c (hp p), fun _ c => hpos ▸ (c.progress g n ha).sends ht hc⟩

/-- The address byte has been acknowledged: the context is out of the transfer and the target PRESENT, and the attempt stands where it was. -/
theorem acked_quiet (g : Seg) (n : SlotId) (s : State) : Quiet s (learnAddressAck n (contextUnaddressed g s)) := by
  refine quiet_trans (quiet_updCtx s g _) (quiet_updEntryOf ?_)
  intro e
  split
  · exact ⟨rfl, rfl, id⟩
  · exact entryQuiet_refl e

theorem acked_slot (g : Seg) (n m : SlotId) (s : State) : (learnAddressAck n (contextUnaddressed g s)).slot m = s.slot m := by
  simp [learnAddressAck, contextUnaddressed]

theorem acked_engine (g : Seg) (n : SlotId) (s : State) : (learnAddressAck n (contextUnaddressed g s)).engine g = s.engine g := by
  simp [learnAddressAck, contextUnaddressed]

/-- An address byte that is acknowledged: the attempt goes on to a position that is in range by its descriptor. -/
theorem addressAck_keeps {g : Seg} {n : SlotId} {pos next : BytePos} {s : State} (hw : P → InHand s g) (hs : Sending s g n pos)
    (hnext : ∀ k, DescriptorInv (s.slot n) k → progressAt (s.slot n) pos → progressAt (s.slot n) next) :
    Keeps P s (afterAck g n next (learnAddressAck n (contextUnaddressed g s))) := by
  obtain ⟨hp, hr, hpos⟩ := sending_inRange hw hs
  refine afterAck_of_loosens (loosens_of_keeps (keeps_of_quiet (acked_quiet g n s)) g n) ?_ ?_ ?_ ?_ ?_
  · rw [acked_engine]; exact hs.1
  · rw [acked_engine]; exact hs.2.2.1
  · rw [acked_slot]; exact hp
  · rw [acked_slot]; exact hr
  · rw [acked_slot]
    intro p c
    obtain ⟨k, hk⟩ := (hr p c).descriptor
    exact hnext k hk (hpos p c)

/-- A failure at an acknowledge takes the engine to the closing stop. -/
theorem meetFailure_quiet {g : Seg} {f : Failure} {s : State} (ht : (s.engine g).state = .transfer) : Quiet s (meetFailure g f s) :=
  stepEngine_quiet (engineQuiet_of_close rfl ht rfl)

theorem addressNack_quiet {g : Seg} {f : Failure} {s : State} (ht : (s.engine g).state = .transfer) :
    Quiet s (meetFailure g f (contextUnaddressed g s)) :=
  quiet_trans (quiet_updCtx s g _) (meetFailure_quiet (by rw [updCtx_engine]; exact ht))

theorem execEngineAddressByte_keeps {g : Seg} {ack : Bool} {s : State} (hw : P → InHand s g) :
    NextKeeps P s (execEngineAddressByte g ack s) := by
  refine ⟨_, rfl, onWire_keeps ?_⟩
  split
  · rename_i n hsend
    have hs := (sending_eq s g n _).mp hsend
    split
    · exact addressAck_keeps hw hs fun _ hk => progressAt_stepAfterAddress hk
    · exact keeps_of_quiet (addressNack_quiet hs.1)
  · rename_i n hsend
    have hs := (sending_eq s g n _).mp hsend
    split
    · exact addressAck_keeps hw hs fun _ hk => progressAt_firstRead hk
    · exact keeps_of_quiet (addressNack_quiet hs.1)
  · exact keeps_refl s

/-- A write byte that is acknowledged is one more of at most 32 (R36, R72). -/
theorem writeAck_keeps {g : Seg} {n : SlotId} {i : Nat} {s : State} (hw : P → InHand s g) (hs : Sending s g n (.writeByte i)) :
    Keeps P s (afterAck g n ((s.slot n).stepAfterWrites (i + 1))
      (s.updSlot n (fun x => { x with bytesAccepted := x.bytesAccepted + 1 }))) := by
  obtain ⟨hp, hr, hpos⟩ := sending_inRange hw hs
  have hslot : (s.updSlot n (fun x => { x with bytesAccepted := x.bytesAccepted + 1 })).slot n =
      { s.slot n with bytesAccepted := (s.slot n).bytesAccepted + 1 } := by rw [updSlot_slot, if_pos rfl]
  have hloose : Loosens P g n s (s.updSlot n (fun x => { x with bytesAccepted := x.bytesAccepted + 1 })) := by
    refine updSlot_loosens hw hs.2.2.1 (fun _ => rfl) (fun _ => rfl) (fun _ => rfl) fun p c => ?_
    obtain ⟨hi, hbytes, -⟩ := hpos p c
    obtain ⟨k, hk⟩ := (hr p c).descriptor
    have := writeCount_le hk
    exact ⟨c.failures n, c.pollsUsed n, by simp only; omega, c.readData n⟩
  refine afterAck_of_loosens hloose hs.1 hs.2.2.1 ?_ ?_ ?_ <;> rw [hslot]
  · exact hp
  · intro p c
    obtain ⟨hf, k, hk, hl, hpolls⟩ := hr p c
    exact ⟨hf, k, hk, hl, hpolls⟩
  · intro p c
    obtain ⟨-, hbytes, hdata⟩ := hpos p c
    exact progressAt_stepAfterWrites (x := { s.slot n with bytesAccepted := (s.slot n).bytesAccepted + 1 })
      (congrArg (· + 1) hbytes) hdata

theorem execEngineWriteByte_keeps {g : Seg} {ack : Bool} {s : State} (hw : P → InHand s g) :
    NextKeeps P s (execEngineWriteByte g ack s) := by
  refine ⟨_, rfl, onWire_keeps ?_⟩
  split
  · rename_i n i hsend
    have hs := (sending_eq s g n _).mp hsend
    split
    · exact writeAck_keeps hw hs
    · exact keeps_of_quiet (meetFailure_quiet hs.1)
  · exact keeps_refl s

/-- The last byte of a read: the engine goes on to the closing stop. -/
theorem endRead_of_loosens {g : Seg} {n : SlotId} {f : Option Failure} {s t : State} (h : Loosens P g n s t)
    (ht : (t.engine g).state = .transfer) (hr : P → CountInv s → PostedInRange (t.slot n)) : Keeps P s (endRead g f t) := by
  unfold endRead stepEngine
  refine ⟨books_trans h.toBooks (updSeg_books _ g _), fun p c => ?_⟩
  refine countInv_of_looseInv (looseInv_updSeg (h.count p c) rfl) (fun _ => hr p c) fun m hm => ?_
  rw [updSeg_engine, if_pos rfl]
  exact progressInv_of_transfer ht trivial

theorem execEngineReadByte_keeps {g : Seg} {b : Byte} {s : State} (hw : P → InHand s g) :
    NextKeeps P s (execEngineReadByte g b s) := by
  refine ⟨_, rfl, onWire_keeps ?_⟩
  split
  · rename_i n i hsend
    have hs := (sending_eq s g n _).mp hsend
    obtain ⟨hp, hr, hpos⟩ := sending_inRange hw hs
    have hslot : (appendRead n b s).slot n = { s.slot n with readData := (s.slot n).readData ++ [b] } := by
      rw [appendRead, updSlot_slot, if_pos rfl]
    have hloose : Loosens P g n s (appendRead n b s) := by
      refine updSlot_loosens hw hs.2.2.1 (fun _ => rfl) (fun _ => rfl) (fun _ => rfl) fun p c => ?_
      obtain ⟨k, hk⟩ := (hr p c).descriptor
      have := readData_lt hk (hpos p c)
      exact ⟨c.failures n, c.pollsUsed n, c.bytesAccepted n, by simp only [List.length_append, List.length_cons, List.length_nil]; omega⟩
    have hposted : P → posted ((appendRead n b s).slot n) := by rw [hslot]; exact hp
    have hrange : P → CountInv s → PostedInRange ((appendRead n b s).slot n) := by
      rw [hslot]
      intro p c
      obtain ⟨hf, k, hk, hl, hpolls⟩ := hr p c
      exact ⟨hf, k, hk, hl, hpolls⟩
    split
    · exact endRead_of_loosens hloose hs.1 hrange
    · rename_i hlast
      split
      · exact closeByMark_of_loosens hloose hposted
      · refine goTo_of_loosens hloose hs.1 hs.2.2.1 hrange ?_
        rw [hslot]
        intro p c
        obtain ⟨k, hk⟩ := (hr p c).descriptor
        exact progressAt_nextRead hk (hpos p c) (Bool.eq_false_iff.mpr hlast)
  · exact keeps_refl s

/-! ### Stops and arbitration -/

theorem execClosingStop_keeps {g : Seg} {s : State} (hw : P → InHand s g) : NextKeeps P s (execClosingStop g s) := by
  refine ⟨_, rfl, onWire_keeps ?_⟩
  split
  · rename_i n hsend
    have hs := (sending_eq s g n _).mp hsend
    have hw' : P → InHand (stopRises g s) g := fun p => stopRises_inHand (hw p)
    refine keeps_trans (keeps_of_quiet (stopRises_quiet g s)) ?_
    split
    · exact evaluateFailure_keeps hw'
    · exact succeed_keeps hw' (by rw [stopRises_engine]; exact hs.2.2.1)
  · exact keeps_refl s

theorem endOfflineClose_quiet (g : Seg) (rose : Bool) (s : State) : Quiet s (endOfflineClose g rose s) := by
  unfold endOfflineClose
  refine quiet_trans (quiet_updSeg ?_) (quiet_trans (releaseLines_quiet g _) (idleEngine_quiet g _))
  exact segQuiet_of_eq rfl rfl

theorem execStopFailed_keeps (g : Seg) (s : State) : NextKeeps P s (execStopFailed g s) := by
  refine ⟨_, rfl, onWire_quiet ?_⟩
  split
  · exact enterRecovery_quiet g s
  · exact quiet_if fun _ => endOfflineClose_quiet g false s

theorem execMarkCloseStop_keeps (g : Seg) (s : State) : NextKeeps P s (execMarkCloseStop g s) :=
  ⟨_, rfl, onWire_quiet (quiet_if fun _ => quiet_trans (stopRises_quiet g s) (idleEngine_quiet g _))⟩

theorem execOfflineCloseStop_keeps (g : Seg) (s : State) : NextKeeps P s (execOfflineCloseStop g s) :=
  ⟨_, rfl, onWire_quiet (quiet_if fun _ => endOfflineClose_quiet g true s)⟩

theorem sampleLow_quiet (g : Seg) (s : State) : Quiet s (sampleLow g s) := quiet_updSeg (segQuiet_of_eq rfl rfl)

theorem execArbitrationLost_keeps {g : Seg} {s : State} (hw : P → InHand s g) : NextKeeps P s (execArbitrationLost g s) := by
  refine ⟨_, rfl, onWire_keeps ?_⟩
  split
  · exact keeps_trans (keeps_of_quiet (sampleLow_quiet g s)) (evaluateFailure_keeps fun p => inHand_updSeg (hw p) rfl)
  · exact keeps_of_quiet (quiet_if fun _ => quiet_trans (sampleLow_quiet g s) (idleEngine_quiet g _))

/-! ### A held clock and recovery -/

theorem execStretchTimerExpiry_keeps (g : Seg) (s : State) : NextKeeps P s (execStretchTimerExpiry g s) := by
  refine ⟨_, rfl, onWire_quiet (quiet_if fun _ => quiet_updSeg ?_)⟩
  exact segQuiet_of_engine rfl (engineQuiet_of_rest rfl (by simp) (by simp))

theorem execClockReleased_keeps (g : Seg) (s : State) : NextKeeps P s (execClockReleased g s) := by
  refine ⟨_, rfl, onWire_quiet (quiet_if fun _ => quiet_updSeg ?_)⟩
  exact segQuiet_of_engine rfl (engineQuiet_of_close rfl rfl rfl)

theorem execReleaseTimerExpiry_keeps {g : Seg} {s : State} (hw : P → InHand s g) : NextKeeps P s (execReleaseTimerExpiry g s) :=
  ⟨_, rfl, onWire_keeps (keeps_if fun _ =>
    keeps_trans (keeps_of_quiet (quiet_updSeg (f := fun x => { x with sclHigh := false }) (segQuiet_of_eq rfl rfl)))
      (enterFaulted_keeps fun p => inHand_updSeg (hw p) rfl))⟩

theorem recovered_keeps {g : Seg} {s : State} (hw : P → InHand s g) : Keeps P s (recovered g s) := by
  unfold recovered
  dsimp only
  have hquiet : Quiet s (enterState g .up .none (s.updSeg g (fun x => { x with known := false, sclHigh := true, sdaHigh := true }))) :=
    quiet_trans (quiet_updSeg (segQuiet_of_eq rfl rfl)) (enterState_quiet g _ _ _)
  refine keeps_trans (keeps_of_quiet hquiet) ?_
  split
  · refine evaluateFailure_keeps fun p => ?_
    refine inHand_congr (t := State.raise _ _) (inHand_updSeg (f := fun x => { x with state := .up, downMode := .none })
      (inHand_updSeg (f := fun x => { x with known := false, sclHigh := true, sdaHigh := true }) (hw p) rfl) rfl) (fun _ => rfl)
      fun _ => rfl
  · exact keeps_of_quiet (idleEngine_quiet g _)

theorem execRecoveryPulse_keeps {g : Seg} {dataHigh : Bool} {s : State} (hw : P → InHand s g) :
    NextKeeps P s (execRecoveryPulse g dataHigh s) := by
  refine ⟨_, rfl, onWire_keeps (keeps_if fun _ => ?_)⟩
  dsimp only
  have hquiet : Quiet s (s.updSeg g (fun x => { x with
      sclHigh := true, sdaHigh := dataHigh
      engine := { x.engine with pulses := x.engine.pulses + 1, recoveryStop := dataHigh, releaseTimer := none } })) :=
    quiet_updSeg (segQuiet_of_engine rfl (engineQuiet_of_eq rfl rfl rfl rfl))
  split
  · exact keeps_trans (keeps_of_quiet hquiet) (enterFaulted_keeps fun p => inHand_updSeg (hw p) rfl)
  · exact keeps_of_quiet hquiet

theorem execRecoveryStop_keeps {g : Seg} {rose : Bool} {s : State} (hw : P → InHand s g) :
    NextKeeps P s (execRecoveryStop g rose s) := by
  refine ⟨_, rfl, onWire_keeps (keeps_if fun _ => ?_)⟩
  dsimp only
  have hquiet : Quiet s (s.updSeg g (fun x => { x with
      sdaHigh := false, engine := { x.engine with recoveryStop := false, releaseTimer := none } })) :=
    quiet_updSeg (segQuiet_of_engine rfl (engineQuiet_of_eq rfl rfl rfl rfl))
  split
  · exact recovered_keeps hw
  · split
    · exact keeps_trans (keeps_of_quiet hquiet) (enterFaulted_keeps fun p => inHand_updSeg (hw p) rfl)
    · exact keeps_of_quiet hquiet

/-! ### The lines -/

theorem engineClock_quiet (high : Bool) (x : Segment) : EngineQuiet x.engine (engineClock high x) := by
  unfold engineClock
  split
  · split
    · exact engineQuiet_of_eq rfl rfl rfl rfl
    · exact engineQuiet_of_eq rfl rfl rfl rfl
    · exact engineQuiet_refl _
    · exact engineQuiet_refl _
  · exact engineQuiet_of_eq rfl rfl rfl rfl
  all_goals exact engineQuiet_refl _

theorem waitingClock_quiet (high : Bool) (x : Segment) : EngineQuiet x.engine (waitingClock high x) := by
  unfold waitingClock
  split
  · exact engineQuiet_of_eq rfl rfl rfl rfl
  · exact engineQuiet_refl _

theorem lineChange_quiet (line : Line) (high : Bool) (x : Segment) : SegQuiet x (lineChange line high x) := by
  unfold lineChange
  split
  · exact segQuiet_of_eq rfl rfl
  · split
    · exact segQuiet_refl x
    · refine segQuiet_of_engine rfl ?_
      dsimp only
      split
      · exact engineClock_quiet high x
      · exact waitingClock_quiet high x

theorem execLineChangeOutsideTransfer_keeps (g : Seg) (line : Line) (high : Bool) (s : State) :
    NextKeeps P s (execLineChangeOutsideTransfer g line high s) := by
  refine ⟨_, rfl, keeps_of_quiet ?_⟩
  split
  · split
    · exact seeStop_quiet g s
    · exact seeStart_quiet g s
  · exact quiet_updSeg (lineChange_quiet line high _)

/-! ### Power -/

theorem recordLevel_quiet (g : Seg) (level : Bool) (s : State) : Quiet s (recordLevel g level s) := quiet_updSeg (segQuiet_of_eq rfl rfl)

/-- The glitch count stays at 255 (R130). -/
theorem ignoreGlitch_quiet (g : Seg) (s : State) : Quiet s (ignoreGlitch g s) :=
  quiet_updSeg ⟨fun _ => Nat.min_le_right _ _, engineQuiet_refl _⟩

theorem assertPower_quiet (g : Seg) (s : State) : Quiet s (assertPower g s) := by
  have hwatched : Quiet s (if (s.seg g).glitchTimer.isSome then ignoreGlitch g s else s) := quiet_if fun _ => ignoreGlitch_quiet g s
  unfold assertPower
  cases (s.seg g).state with
  | dark => exact settleIfPowered_quiet g s
  | up | recovering | faulted => exact hwatched
  | settling | offline => exact quiet_refl s

theorem deassertPower_keeps {g : Seg} {s : State} (hw : P → InHand s g) : Keeps P s (deassertPower g s) := by
  have hdown : Keeps P s (if (s.seg g).config.glitchWindow = 0 then goDark g s else startGlitchWatch g s) := by
    split
    · exact goDark_keeps hw
    · exact keeps_of_quiet (quiet_updSeg (segQuiet_of_eq rfl rfl))
  unfold deassertPower
  cases (s.seg g).state with
  | settling => exact keeps_of_quiet (quiet_trans (stopQualifier_quiet g s) (enterState_quiet g _ _ _))
  | up | recovering | faulted => exact hdown
  | dark | offline => exact keeps_refl s

theorem execSpgAssert_keeps (g : Seg) (s : State) : NextKeeps P s (execSpgAssert g s) := by
  refine ⟨_, rfl, ?_⟩
  split
  · exact keeps_refl s
  · exact keeps_trans (keeps_of_quiet (recordLevel_quiet g true s)) (onWire_quiet (assertPower_quiet g _))

theorem execSpgDeassert_keeps {g : Seg} {s : State} (hw : P → InHand s g) : NextKeeps P s (execSpgDeassert g s) := by
  refine ⟨_, rfl, keeps_if fun _ => ?_⟩
  exact keeps_trans (keeps_of_quiet (recordLevel_quiet g false s))
    (onWire_keeps (deassertPower_keeps fun p => inHand_updSeg (hw p) rfl))

theorem reachUp_quiet (g : Seg) (s : State) : Quiet s (reachUp g s) := by
  unfold reachUp
  refine quiet_trans (quiet_updSeg ?_) (enterState_quiet g _ _ _)
  exact segQuiet_of_eq rfl rfl

theorem execSettleTimerExpiry_keeps (g : Seg) (s : State) : NextKeeps P s (execSettleTimerExpiry g s) :=
  ⟨_, rfl, onWire_quiet (quiet_if fun _ => reachUp_quiet g s)⟩

theorem execGlitchTimerExpiry_keeps {g : Seg} {s : State} (hw : P → InHand s g) : NextKeeps P s (execGlitchTimerExpiry g s) :=
  ⟨_, rfl, onWire_keeps (keeps_if fun _ => goDark_keeps hw)⟩

end Sys2Proof.Machine
end

section
/-! SUPPORT. What the registers, the resets and the table port keep of the identities, the reference counts and the counts, and with them every row. -/

namespace Sys2Proof.Machine

open Sys2Proof.Safety Sys2Proof.Claims

variable {P : Prop}

/-! ### Registers and timers of the window -/

theorem signalQueue_quiet (s : State) : Quiet s s.signalQueue := quiet_of_eq rfl rfl rfl

theorem startCoalescing_quiet (s : State) : Quiet s s.startCoalescing := by
  rw [startCoalescing_eq]; exact quiet_of_eq rfl rfl rfl

theorem clearFlags_quiet (s : State) (ones : Word) : Quiet s (s.clearFlags ones) := by
  have hcleared : Quiet s (s.updEv (fun x => { x with flags := x.flags &&& ~~~ones })) := quiet_of_eq rfl rfl rfl
  unfold State.clearFlags
  dsimp only
  split
  · split
    · exact quiet_trans hcleared (signalQueue_quiet _)
    · split
      · exact hcleared
      · exact quiet_trans hcleared (startCoalescing_quiet _)
  · exact hcleared

theorem configureQueue_quiet (s : State) (threshold : BitVec 6) (delay : Byte) : Quiet s (s.configureQueue threshold delay) := by
  have hstored : Quiet s (s.updCq (fun q => { q with threshold := storedThreshold threshold, delay := delay })) := quiet_of_eq rfl rfl rfl
  have hsignal : ∀ {c : Prop} [Decidable c] {t : State}, Quiet s t → Quiet s (if c then t.signalQueue else t) := fun h => by
    split
    · exact quiet_trans h (signalQueue_quiet _)
    · exact h
  have hdelay : ∀ {u : State}, Quiet s u → Quiet s
      (if delay = 0 then u.updCq (fun q => { q with timer := none })
        else if u.cq.timer.isNone && !u.cq.queue.isEmpty && !u.flag .cqReady then u.startCoalescing
        else u) := fun h => by
    split
    · exact quiet_trans h (quiet_of_eq rfl rfl rfl)
    · split
      · exact quiet_trans h (startCoalescing_quiet _)
      · exact h
  exact hdelay (hsignal hstored)

theorem onWindow_quiet {f : State → State} {s : State} (h : Quiet s (f s)) : Keeps P s (onWindow f s) := onWindow_keeps (keeps_of_quiet h)

theorem writePlain_quiet (r : PlainRegister) (v : Word) (s : State) : Quiet s (writePlain r v s) := by
  cases r <;> exact quiet_of_eq rfl rfl rfl

theorem execTbloRead_keeps (s : State) : NextKeeps P s (execTbloRead s) := by
  refine ⟨_, rfl, ?_⟩
  split <;> exact keeps_of_eq rfl rfl rfl

theorem execUndefinedWordAccess_keeps (word : Fin 8) (a : Access) (s : State) : NextKeeps P s (execUndefinedWordAccess word a s) := by
  refine ⟨_, rfl, keeps_trans (onWindow_quiet (f := fun s => s.raise .windowError) (raise_quiet s _)) ?_⟩
  cases a <;> exact keeps_of_eq rfl rfl rfl

theorem execCoalescingTimerExpiry_keeps (s : State) : NextKeeps P s (execCoalescingTimerExpiry s) :=
  ⟨_, rfl, onWire_quiet (quiet_if fun _ => signalQueue_quiet s)⟩

theorem execTimeBaseCount_keeps (s : State) : NextKeeps P s (execTimeBaseCount s) := by
  refine ⟨_, rfl, ?_⟩
  split <;> exact keeps_of_eq rfl rfl rfl

/-! ### The resets -/

@[simp] theorem mapAll_getElem {α : Type} {n : Nat} (f : α → α) (v : Vector α n) (i : Fin n) : (mapAll f v)[i] = f v[i] := by
  simp [mapAll]

/-- A state with every slot as after RST#, no reference and no learned count, and every engine without a slot. -/
structure Cleared (s : State) : Prop where
  slots : ∀ n : SlotId, s.slot n = {}
  refCount : ∀ k : TargetId, (s.target k).refCount = 0
  failureCount : ∀ k : TargetId, (s.target k).failureCount = 0
  active : ∀ g : Seg, (s.engine g).active = none
  glitchCount : ∀ g : Seg, (s.seg g).glitchCount = 0

theorem referenceInv_of_cleared {s : State} (h : Cleared s) : ReferenceInv s := by
  have hfree : ∀ n, ¬ posted (s.slot n) := fun n => by simp [h.slots n, posted]
  refine ⟨fun k => ?_, fun n hn => absurd hn (hfree n)⟩
  rw [h.refCount, eq_comm]
  exact List.countP_eq_zero.mpr fun n _ hn => hfree n (names_iff.mp hn).1

theorem countInv_of_cleared {s : State} (h : Cleared s) : CountInv s := by
  refine countInv_of_units (fun n => ?_) (fun n hn => ?_) (fun g n hn => ?_) (fun k => ?_) fun g => ?_
  · rw [h.slots n]; exact ⟨Nat.zero_le _, Nat.zero_le _, Nat.zero_le _, Nat.zero_le _⟩
  · exact absurd hn (by simp [h.slots n, posted])
  · rw [h.active g] at hn; cases hn
  · rw [h.failureCount k]; exact Nat.zero_le _
  · rw [h.glitchCount g]; exact Nat.zero_le _

theorem keeps_of_cleared {s t : State} (hi : IdentityInv s → IdentityInv t) (h : Cleared t) : Keeps P s t :=
  ⟨⟨hi, fun _ _ => referenceInv_of_cleared h⟩, fun _ _ => countInv_of_cleared h⟩

/-- With every entry invalid there is nothing to keep apart. -/
theorem identityInv_of_invalid {s : State} (h : ∀ k, (s.target k).valid = false) : IdentityInv s :=
  ⟨fun k hk => by simp [h k] at hk, fun j k _ hj => by simp [h j] at hj⟩

/-- A unit of a vector of equal units. -/
theorem replicate_getElem {α : Type} {n : Nat} (x : α) (i : Fin n) : (Vector.replicate n x)[i] = x := by simp

theorem rstValues_target (held : Bool) (s : State) (k : TargetId) : (rstValues held s).target k = {} := replicate_getElem _ k

theorem rstValues_seg (held : Bool) (s : State) (g : Seg) : (rstValues held s).seg g = (s.seg g).afterRst := mapAll_getElem _ _ g

theorem rstValues_cleared (held : Bool) (s : State) : Cleared (rstValues held s) where
  slots n := replicate_getElem _ n
  refCount k := by rw [rstValues_target]
  failureCount k := by rw [rstValues_target]
  active g := by rw [State.engine, rstValues_seg]; rfl
  glitchCount g := by rw [rstValues_seg]; rfl

theorem rstValues_keeps (held : Bool) (s : State) : Keeps P s (rstValues held s) :=
  keeps_of_cleared (fun _ => identityInv_of_invalid fun k => by rw [rstValues_target]) (rstValues_cleared held s)

theorem settleDark_quiet (s : State) (g : Seg) : Quiet s (settleDark s g) := quiet_if fun _ => settleIfPowered_quiet g s

theorem foldl_settleDark_quiet (gs : List Seg) (s : State) : Quiet s (gs.foldl settleDark s) := by
  induction gs generalizing s with
  | nil => exact quiet_refl s
  | cons g gs ih => exact quiet_trans (settleDark_quiet s g) (ih _)

theorem execRstAssert_keeps (s : State) : NextKeeps P s (execRstAssert s) := ⟨_, rfl, rstValues_keeps true s⟩

theorem execRstEnd_keeps (s : State) : NextKeeps P s (execRstEnd s) :=
  ⟨_, rfl, keeps_if fun _ => keeps_trans (rstValues_keeps false s) (keeps_of_quiet (foldl_settleDark_quiet allSegs _))⟩

theorem beginReset_quiet (x : Segment) : SegQuiet x x.beginReset := by
  unfold Segment.beginReset
  dsimp only
  split <;> exact segQuiet_of_engine rfl (.inl rfl)

theorem beginDeviceReset_quiet (s : State) : Quiet s (beginDeviceReset s) where
  slots _ := slotQuiet_refl _
  entries _ := entryQuiet_refl _
  segments g := by
    rw [show (beginDeviceReset s).seg g = (s.seg g).beginReset from mapAll_getElem _ _ g]
    exact beginReset_quiet _

theorem execDeviceReset_keeps (s : State) : NextKeeps P s (execDeviceReset s) :=
  ⟨_, rfl, onWindow_quiet (quiet_trans (quiet_of_eq (t := storeCode Command.deviceReset.code s) rfl rfl rfl) (beginDeviceReset_quiet _))⟩

/-- The state that DEVICE_RESET ends in, before the powered segments enter SETTLING. -/
def deviceResetValues (s : State) : State :=
  { s with
    win := { s.win with
      resetBusy := false, cmd := Command.deviceReset.code, cmdResult := .done, cmdValue := 0
      tselTable := 0, tselInstance := 0, tidxIndex := 0, tidxAuto := false, tstat := .ok }
    ev := { s.ev with flags := 0 }
    cq := { s.cq with queue := [], timer := none }
    slots := Vector.replicate 32 {}
    targets := mapAll TargetEntry.forget s.targets
    segs := mapAll Segment.endReset s.segs
    boxes := Vector.replicate 4 {} }

theorem endDeviceReset_eq (s : State) : endDeviceReset s = allSegs.foldl settleDark (deviceResetValues s) := rfl

theorem deviceResetValues_target (s : State) (k : TargetId) : (deviceResetValues s).target k = (s.target k).forget := mapAll_getElem _ _ k

theorem deviceResetValues_seg (s : State) (g : Seg) : (deviceResetValues s).seg g = (s.seg g).endReset := mapAll_getElem _ _ g

/-- A segment has lost its work and its glitch count. -/
theorem endReset_cleared (x : Segment) : x.endReset.engine = {} ∧ x.endReset.glitchCount = 0 := by
  unfold Segment.endReset
  dsimp only
  split <;> exact ⟨rfl, rfl⟩

theorem deviceResetValues_cleared (s : State) : Cleared (deviceResetValues s) where
  slots n := replicate_getElem _ n
  refCount k := by rw [deviceResetValues_target]; rfl
  failureCount k := by rw [deviceResetValues_target]; rfl
  active g := by rw [State.engine, deviceResetValues_seg, (endReset_cleared _).1]
  glitchCount g := by rw [deviceResetValues_seg, (endReset_cleared _).2]

/-- DEVICE_RESET keeps the identity of every entry (R16). -/
theorem execDeviceResetEnd_keeps (s : State) : NextKeeps P s (execDeviceResetEnd s) := by
  refine ⟨_, rfl, keeps_if fun _ => ?_⟩
  rw [endDeviceReset_eq]
  refine keeps_trans (keeps_of_cleared (identityInv_congr fun k => ?_) (deviceResetValues_cleared s))
    (keeps_of_quiet (foldl_settleDark_quiet allSegs _))
  rw [deviceResetValues_target]; rfl

/-! ### The table port -/

theorem accepted_quiet (st : TableStatus) (s : State) : Quiet s (accepted st s) := quiet_of_eq rfl rfl rfl

theorem refused_quiet (st : TableStatus) (s : State) : Quiet s (refused st s) := quiet_of_eq rfl rfl rfl

theorem outOfRange_quiet (s : State) : Quiet s (outOfRange s) := quiet_of_eq rfl rfl rfl

theorem execTdataRead_keeps (s : State) : NextKeeps P s (execTdataRead s) := by
  refine ⟨_, rfl, keeps_of_quiet ?_⟩
  split
  · unfold tdataRead
    split <;> exact quiet_of_eq rfl rfl rfl
  · exact quiet_of_eq rfl rfl rfl

/-- What the three checks of R4 leave of an identity that is not refused. -/
theorem identityFault_eq_none {s : State} {k : TargetId} {d : Identity} :
    s.identityFault k d = none ↔ ((s.target k).refCount ≠ 0 → d = (s.target k).identity) ∧ (d.valid = true → d.usable = true) ∧
      (d.valid = true → ∀ j, j ≠ k → (s.target j).valid = true →
        ¬ ((s.target j).segment = d.segment ∧ (s.target j).address = d.address)) := by
  have hduplicated : s.duplicated k d = false ↔ ∀ j, j ≠ k → (s.target j).valid = true →
      ¬ ((s.target j).segment = d.segment ∧ (s.target j).address = d.address) := by
    simp [State.duplicated]
  rw [← hduplicated]
  unfold State.identityFault
  by_cases hinUse : (s.target k).refCount ≠ 0 ∧ d ≠ (s.target k).identity
  · simp only [if_pos hinUse, reduceCtorEq, false_iff]
    exact fun h => hinUse.2 (h.1 hinUse.1)
  · have hfree : (s.target k).refCount ≠ 0 → d = (s.target k).identity := fun h0 => by
      by_contra hd; exact hinUse ⟨h0, hd⟩
    rw [if_neg hinUse]
    cases d.valid with
    | false => simpa using hfree
    | true =>
      cases d.usable with
      | false => simp
      | true => simpa using fun _ => hfree

/-- The state of an identity write that changes a field (R5). -/
def changeIdentity (k : TargetId) (d : Identity) (s : State) : State :=
  s.updTarget k (fun e => { e with
    valid := d.valid, segment := d.segment, address := d.address, presence := .unknown, failureCount := 0, lastFinal := none })

theorem changeIdentity_identity (k j : TargetId) (d : Identity) (s : State) :
    ((changeIdentity k d s).target j).identity = if j = k then d else (s.target j).identity := by
  rw [changeIdentity, updTarget_target]; split <;> rfl

theorem changeIdentity_refCount (k j : TargetId) (d : Identity) (s : State) :
    ((changeIdentity k d s).target j).refCount = (s.target j).refCount := by
  rw [changeIdentity, updTarget_target]; split
  · rename_i h; rw [h]
  · rfl

/-- An identity that passes the checks is usable, and differs from every other valid entry's (R3, R4). -/
theorem changeIdentity_identityInv {k : TargetId} {d : Identity} {s : State} (hf : s.identityFault k d = none) (h : IdentityInv s) :
    IdentityInv (changeIdentity k d s) := by
  obtain ⟨-, husable, hfresh⟩ := identityFault_eq_none.mp hf
  have hvalid : ∀ j, ((changeIdentity k d s).target j).valid = if j = k then d.valid else (s.target j).valid := fun j => by
    have := congrArg Identity.valid (changeIdentity_identity k j d s); rw [apply_ite Identity.valid] at this; exact this
  have hsegment : ∀ j, ((changeIdentity k d s).target j).segment = if j = k then d.segment else (s.target j).segment := fun j => by
    have := congrArg Identity.segment (changeIdentity_identity k j d s); rw [apply_ite Identity.segment] at this; exact this
  have haddress : ∀ j, ((changeIdentity k d s).target j).address = if j = k then d.address else (s.target j).address := fun j => by
    have := congrArg Identity.address (changeIdentity_identity k j d s); rw [apply_ite Identity.address] at this; exact this
  constructor
  · intro j hj
    rw [hvalid] at hj
    rw [changeIdentity_identity]
    split at hj
    · rename_i hjk; rw [if_pos hjk]; exact husable hj
    · rename_i hjk; rw [if_neg hjk]; exact h.usable j hj
  · intro i j hij hi hj
    rw [hvalid] at hi hj
    simp only [hsegment, haddress]
    by_cases hik : i = k
    · have hjk : j ≠ k := fun hc => hij (hik.trans hc.symm)
      rw [if_pos hik] at hi; rw [if_neg hjk] at hj
      simp only [if_pos hik, if_neg hjk]
      exact fun hc => hfresh hi j hjk hj ⟨hc.1.symm, hc.2.symm⟩
    · rw [if_neg hik] at hi
      by_cases hjk : j = k
      · rw [if_pos hjk] at hj
        simp only [if_neg hik, if_pos hjk]
        exact hfresh hj i hik hi
      · rw [if_neg hjk] at hj
        simp only [if_neg hik, if_neg hjk]
        exact h.unique i j hij hi hj

/-- An identity changes only where the reference count is 0, so no posted slot names the entry (R4, R28). -/
theorem changeIdentity_reference {k : TargetId} {d : Identity} {s : State} (h0 : (s.target k).refCount = 0) (r : ReferenceInv s) :
    ReferenceInv (changeIdentity k d s) := by
  refine ⟨fun j => by rw [changeIdentity_refCount]; exact r.counted j, fun n hn => ?_⟩
  obtain ⟨j, hj, hvalid, hseg⟩ := r.named n hn
  have hjk : j ≠ k := by
    rintro rfl
    have hcount : postedCount s j = 0 := (r.counted j).symm.trans h0
    exact List.countP_eq_zero.mp hcount n (List.mem_finRange n) (names_iff.mpr ⟨hn, hj⟩)
  have htarget : (changeIdentity k d s).target j = s.target j := by rw [changeIdentity, updTarget_target, if_neg hjk]
  exact ⟨j, hj, by rw [htarget]; exact hvalid, by rw [htarget]; exact hseg⟩

theorem changeIdentity_count {k : TargetId} {d : Identity} {s : State} (c : CountInv s) : CountInv (changeIdentity k d s) := by
  refine ⟨c.failures, c.postedFailures, c.pollsUsed, c.bytesAccepted, c.readData, c.descriptor, c.progress, fun j => ?_, c.glitchCount⟩
  rw [changeIdentity, updTarget_target]; split
  · exact Nat.zero_le _
  · exact c.failureCount j

theorem writeIdentity_keeps (k : TargetId) (v : Word) (s : State) : Keeps P s (writeIdentity k v s) := by
  unfold writeIdentity
  cases hf : s.identityFault k (Identity.ofWord v) with
  | some st => exact keeps_of_quiet (refused_quiet st s)
  | none =>
    refine keeps_trans ?_ (keeps_of_quiet (accepted_quiet .ok (storeIdentity k (Identity.ofWord v) s)))
    unfold storeIdentity
    split
    · exact keeps_refl s
    · rename_i hchange
      have h0 : (s.target k).refCount = 0 := by
        by_contra hne
        exact hchange ((identityFault_eq_none.mp hf).1 hne)
      exact ⟨⟨changeIdentity_identityInv hf, fun _ => changeIdentity_reference h0⟩, fun _ => changeIdentity_count⟩

theorem writePolicy_quiet (k : TargetId) (v : Word) (s : State) : Quiet s (writePolicy k v s) := by
  unfold writePolicy
  refine quiet_trans (quiet_updTarget ?_) (accepted_quiet .ok _)
  exact fun _ => ⟨rfl, rfl, id⟩

/-- A written word of a slot leaves its state and its counts. -/
theorem store_record {x : Slot} (i : Nat) (v : Word) (h : RecordInRange x) : RecordInRange (x.store i v) := by
  obtain ⟨hf, hp, hb, hr⟩ := h
  unfold Slot.store
  split <;> exact ⟨hf, hp, hb, hr⟩

theorem store_state (x : Slot) (i : Nat) (v : Word) : (x.store i v).state = x.state := by
  unfold Slot.store
  split <;> rfl

theorem writeSlotField_keeps {n : SlotId} {i : Nat} {v : Word} {s : State} (hw : P → WorkInv s) : Keeps P s (writeSlotField n i v s) := by
  unfold writeSlotField
  split
  · rename_i hn
    refine keeps_trans (updSlot_unposted_keeps (f := fun x => x.store i v) hw (fun _ => by simp [posted, hn])
      (fun _ => by simp [posted, store_state, hn]) fun c => store_record i v (countInv_record c n)) (keeps_of_quiet (accepted_quiet .ok _))
  · exact keeps_of_quiet (refused_quiet _ s)

theorem writeConfig_quiet (g : Seg) (i : Nat) (v : Word) (s : State) : Quiet s (writeConfig g i v s) := by
  unfold writeConfig
  refine quiet_trans (quiet_updSeg ?_) (accepted_quiet .ok _)
  exact segQuiet_of_eq rfl rfl

theorem writeResponder_quiet (e : EntryId) (i : Nat) (v : Word) (s : State) : Quiet s (writeResponder e i v s) := quiet_of_eq rfl rfl rfl

theorem writeStaging_quiet (m : BoxId) (i : Nat) (v : Word) (s : State) : Quiet s (writeStaging m i v s) := quiet_of_eq rfl rfl rfl

theorem tdataWrite_keeps {v : Word} {s : State} (hw : P → WorkInv s) : Keeps P s (tdataWrite v s) := by
  unfold tdataWrite
  split
  · exact writeIdentity_keeps _ v s
  · exact keeps_of_quiet (writePolicy_quiet _ v s)
  · exact writeSlotField_keeps hw
  · exact keeps_of_quiet (writeConfig_quiet _ _ v s)
  · exact keeps_of_quiet (writeResponder_quiet _ _ v s)
  · exact keeps_of_quiet (writeStaging_quiet _ _ v s)
  -- what is left is refused or out of range, and only TSTAT, the index and TABLE_ERROR tell of it
  all_goals exact keeps_of_eq rfl rfl rfl

/-! ### Every row -/

theorem execTargetIdentityWrite_keeps {v : Word} {s : State} (hw : P → WorkInv s) : NextKeeps P s (execTargetIdentityWrite v s) := by
  refine ⟨_, rfl, onWindow_keeps ?_⟩
  split
  · exact writeIdentity_keeps _ v s
  · exact tdataWrite_keeps hw

theorem execTargetPolicyWrite_keeps {v : Word} {s : State} (hw : P → WorkInv s) : NextKeeps P s (execTargetPolicyWrite v s) := by
  refine ⟨_, rfl, onWindow_keeps ?_⟩
  split
  · exact keeps_of_quiet (writePolicy_quiet _ v s)
  · exact tdataWrite_keeps hw

theorem execSlotFieldWrite_keeps {v : Word} {s : State} (hw : P → WorkInv s) : NextKeeps P s (execSlotFieldWrite v s) := by
  refine ⟨_, rfl, onWindow_keeps ?_⟩
  split
  · exact writeSlotField_keeps hw
  · exact tdataWrite_keeps hw

theorem execSegmentConfigWrite_keeps {v : Word} {s : State} (hw : P → WorkInv s) : NextKeeps P s (execSegmentConfigWrite v s) := by
  refine ⟨_, rfl, onWindow_keeps ?_⟩
  split
  · exact keeps_of_quiet (writeConfig_quiet _ _ v s)
  · exact tdataWrite_keeps hw

theorem execResponderEntryWrite_keeps {v : Word} {s : State} (hw : P → WorkInv s) : NextKeeps P s (execResponderEntryWrite v s) := by
  refine ⟨_, rfl, onWindow_keeps ?_⟩
  split
  · exact keeps_of_quiet (writeResponder_quiet _ _ v s)
  · exact tdataWrite_keeps hw

theorem execStagingBytesWrite_keeps {v : Word} {s : State} (hw : P → WorkInv s) : NextKeeps P s (execStagingBytesWrite v s) := by
  refine ⟨_, rfl, onWindow_keeps ?_⟩
  split
  · exact keeps_of_quiet (writeStaging_quiet _ _ v s)
  · exact tdataWrite_keeps hw

theorem execReadOnlyTableWrite_keeps {v : Word} {s : State} (hw : P → WorkInv s) : NextKeeps P s (execReadOnlyTableWrite v s) := by
  refine ⟨_, rfl, onWindow_keeps ?_⟩
  split
  · split
    · exact keeps_of_quiet (refused_quiet _ s)
    · exact tdataWrite_keeps hw
  · exact tdataWrite_keeps hw

theorem execTdataWriteOutOfRange_keeps {v : Word} {s : State} (hw : P → WorkInv s) : NextKeeps P s (execTdataWriteOutOfRange v s) := by
  refine ⟨_, rfl, onWindow_keeps ?_⟩
  split
  · exact keeps_of_quiet (outOfRange_quiet s)
  · exact tdataWrite_keeps hw

/-- A write of CMD with the code of a command. -/
theorem writeCommand_keeps (c : Command) {s : State} (hw : P → WorkInv s) : NextKeeps P s (writeCommand c s) := by
  cases c with
  | allocate => exact ⟨_, rfl, runCommand_keeps hw fun _ h => allocate_keeps h⟩
  | discard => exact ⟨_, rfl, runCommand_keeps hw fun _ h => withNumber_keeps fun _ => discard_keeps h⟩
  | post => exact ⟨_, rfl, runCommand_keeps hw fun _ h => withNumber_keeps fun _ => post_keeps h⟩
  | abort => exact ⟨_, rfl, runCommand_keeps hw fun _ h => withNumber_keeps fun _ => abort_keeps h⟩
  | retire => exact ⟨_, rfl, runCommand_keeps hw fun _ h => retire_keeps h⟩
  | flushSegment => exact ⟨_, rfl, runCommand_keeps hw fun _ h => withNumber_keeps fun _ => flushSegment_keeps h⟩
  | offline => exact ⟨_, rfl, runCommand_keeps hw fun _ h => withNumber_keeps fun _ => offline_keeps h⟩
  | online => exact ⟨_, rfl, runCommand_keeps hw fun u _ => withNumber_keeps fun g => keeps_of_quiet (online_quiet g u)⟩
  | segmentReset => exact ⟨_, rfl, runCommand_keeps hw fun _ h => withNumber_keeps fun _ => segmentReset_keeps h⟩
  | readmit => exact ⟨_, rfl, runCommand_keeps hw fun u _ => withNumber_keeps fun k => keeps_of_quiet (readmit_quiet k u)⟩
  | releaseInbound => exact ⟨_, rfl, runCommand_keeps hw fun u _ => withNumber_keeps fun m => keeps_of_quiet (releaseInbound_quiet m u)⟩
  | commitOutbound => exact ⟨_, rfl, runCommand_keeps hw fun u _ => withNumber_keeps fun m => keeps_of_quiet (commitOutbound_quiet m u)⟩
  | cancelOutbound => exact ⟨_, rfl, runCommand_keeps hw fun u _ => withNumber_keeps fun m => keeps_of_quiet (cancelOutbound_quiet m u)⟩
  | deviceReset => exact execDeviceReset_keeps s

theorem execUnknownCommand_keeps {code : BitVec 8} {s : State} (hw : P → WorkInv s) : NextKeeps P s (execUnknownCommand code s) := by
  unfold execUnknownCommand
  split
  · exact ⟨_, rfl, runCommand_keeps hw fun u _ => keeps_refl u⟩
  · exact writeCommand_keeps _ hw

/-- Every row keeps the books and the counts, WorkInv being known of the state in which it is taken. -/
theorem exec_keeps (i : Instr) {s : State} (hw : P → WorkInv s) : NextKeeps P s (exec i s) := by
  have hand : ∀ g, P → InHand s g := fun g p => inHand_of_workInv (hw p) g
  cases i with
  | allocate => exact writeCommand_keeps .allocate hw
  | discard => exact writeCommand_keeps .discard hw
  | post => exact writeCommand_keeps .post hw
  | abort => exact writeCommand_keeps .abort hw
  | retire => exact writeCommand_keeps .retire hw
  | flushSegment => exact writeCommand_keeps .flushSegment hw
  | offline => exact writeCommand_keeps .offline hw
  | online => exact writeCommand_keeps .online hw
  | segmentReset => exact writeCommand_keeps .segmentReset hw
  | readmit => exact writeCommand_keeps .readmit hw
  | releaseInbound => exact writeCommand_keeps .releaseInbound hw
  | commitOutbound => exact writeCommand_keeps .commitOutbound hw
  | cancelOutbound => exact writeCommand_keeps .cancelOutbound hw
  | deviceReset => exact execDeviceReset_keeps s
  | deviceResetEnd => exact execDeviceResetEnd_keeps s
  | unknownCommand code => exact execUnknownCommand_keeps hw
  | tdataRead => exact execTdataRead_keeps s
  | targetIdentityWrite v => exact execTargetIdentityWrite_keeps hw
  | targetPolicyWrite v => exact execTargetPolicyWrite_keeps hw
  | slotFieldWrite v => exact execSlotFieldWrite_keeps hw
  | segmentConfigWrite v => exact execSegmentConfigWrite_keeps hw
  | responderEntryWrite v => exact execResponderEntryWrite_keeps hw
  | stagingBytesWrite v => exact execStagingBytesWrite_keeps hw
  | readOnlyTableWrite v => exact execReadOnlyTableWrite_keeps hw
  | evtWrite v => exact ⟨_, rfl, onWindow_quiet (clearFlags_quiet s v)⟩
  | evtenWrite v => exact ⟨_, rfl, onWindow_quiet (quiet_of_eq rfl rfl rfl)⟩
  | ctlWrite v => exact ⟨_, rfl, onWindow_quiet (quiet_of_eq rfl rfl rfl)⟩
  | cqcfgWrite v => exact ⟨_, rfl, onWindow_quiet (configureQueue_quiet s _ _)⟩
  | tbloRead => exact execTbloRead_keeps s
  | undefinedWordAccess w a => exact execUndefinedWordAccess_keeps w a s
  | registerWrite r v => exact ⟨_, rfl, onWindow_quiet (writePlain_quiet r v s)⟩
  | rstAssert => exact execRstAssert_keeps s
  | rstEnd => exact execRstEnd_keeps s
  | spgAssert g => exact execSpgAssert_keeps g s
  | spgDeassert g => exact execSpgDeassert_keeps (hand g)
  | settleTimerExpiry g => exact execSettleTimerExpiry_keeps g s
  | glitchTimerExpiry g => exact execGlitchTimerExpiry_keeps (hand g)
  | headEvaluation g held => exact execHeadEvaluation_keeps hw
  | engineStart g => exact execEngineStart_keeps g s
  | busyTimerExpiry g => exact execBusyTimerExpiry_keeps (hand g)
  | stuckDetected g => exact execStuckDetected_keeps g s
  | engineAddressByte g ack => exact execEngineAddressByte_keeps (hand g)
  | engineWriteByte g ack => exact execEngineWriteByte_keeps (hand g)
  | engineReadByte g b => exact execEngineReadByte_keeps (hand g)
  | closingStop g => exact execClosingStop_keeps (hand g)
  | stopFailed g => exact execStopFailed_keeps g s
  | markCloseStop g => exact execMarkCloseStop_keeps g s
  | offlineCloseStop g => exact execOfflineCloseStop_keeps g s
  | arbitrationLost g => exact execArbitrationLost_keeps (hand g)
  | stretchTimerExpiry g => exact execStretchTimerExpiry_keeps g s
  | clockReleased g => exact execClockReleased_keeps g s
  | releaseTimerExpiry g => exact execReleaseTimerExpiry_keeps (hand g)
  | recoveryPulse g dataHigh => exact execRecoveryPulse_keeps (hand g)
  | recoveryStop g rose => exact execRecoveryStop_keeps (hand g)
  | backoffTimerExpiry g held => exact execBackoffTimerExpiry_keeps (hand g)
  | pollTimerExpiry g held => exact execPollTimerExpiry_keeps (hand g)
  | coalescingTimerExpiry => exact execCoalescingTimerExpiry_keeps s
  | remoteStart g => exact execRemoteStart_keeps g s
  | remoteAddressByte g b => exact execRemoteAddressByte_keeps g b s
  | remoteWriteByte g b => exact execRemoteWriteByte_keeps g b s
  | remoteReadByte g ack => exact execRemoteReadByte_keeps g ack s
  | remoteStop g => exact execRemoteStop_keeps g s
  | remoteRepeatedStart g => exact execRemoteRepeatedStart_keeps g s
  | holdTimerExpiry g => exact execHoldTimerExpiry_keeps g s
  | lineChangeOutsideTransfer g line high => exact execLineChangeOutsideTransfer_keeps g line high s
  | timeBaseCount => exact execTimeBaseCount_keeps s
  | tdataWriteOutOfRange v => exact execTdataWriteOutOfRange_keeps hw

/-- A step keeps the books and the counts of a state that meets WorkInv. -/
theorem step_keeps {s t : State} (h : step s = .next t) : Keeps (WorkInv s) s t := by
  unfold step at h
  split at h
  · cases h; exact keeps_refl s
  · rename_i i rest _
    have hw : WorkInv s → WorkInv { s with pending := rest } := fun w =>
      ⟨w.queued, w.queuedOnce, w.listed, w.listedOnce, w.engaged, w.active⟩
    obtain ⟨u, hu, hkeeps⟩ := exec_keeps i hw
    cases hu.symm.trans h
    exact keeps_trans (keeps_of_eq (t := { s with pending := rest }) rfl rfl rfl) hkeeps

end Sys2Proof.Machine
end

section
/-! SUPPORT. The statements of the family: the three invariants that every step keeps, READMIT, the identity write, the settings writes and the
state after RST#. -/

namespace Sys2Proof.Machine

open Sys2Proof.Safety Sys2Proof.Claims

/-! ### What every step keeps -/

/-- Settles O5: an identity is stored only by a write that has passed the checks of R4; RST# clears them all, and no other row touches one. -/
theorem everyStepKeepsIdentities : Obligations.EveryStepKeepsIdentities :=
  fun _ _ hi h => (step_keeps h).identity hi

/-- Settles O7: a POST raises the count of the entry that it names, a completion lowers it, and nothing else posts or ends a slot. -/
theorem everyStepKeepsReferenceCounts : Obligations.EveryStepKeepsReferenceCounts :=
  fun _ _ _ hw hr h => (step_keeps h).reference hw hr

/-- Settles O11: every count grows only where the descriptor, the retry limit or the poll limit still has room for it. -/
theorem everyStepKeepsCountsInRange : Obligations.EveryStepKeepsCountsInRange :=
  fun _ _ hw hc h => (step_keeps h).count hw hc

/-! ### READMIT -/

/-- READMIT of a valid entry forgets its presence and its failure count (R13). -/
theorem readmit_valid {s : State} {k : TargetId} (ho : s.windowOpen = true) (hn : s.argNumber = k.val)
    (hvalid : (s.target k).valid = true) :
    runCommand Command.readmit.code (withNumber 48 readmit) s =
      ((storeCode Command.readmit.code s).updTarget k (fun e => { e with presence := .unknown, failureCount := 0 })).updWin
        (CmdResult.done.put k.val) := by
  rw [runCommand_number hn]
  exact runCommand_accept ho (by rw [readmit, if_pos (show ((storeCode Command.readmit.code s).target k).valid = true from hvalid)])

theorem readmit_invalid {s : State} {k : TargetId} (ho : s.windowOpen = true) (hn : s.argNumber = k.val)
    (hvalid : (s.target k).valid = false) :
    RefusedWith s (runCommand Command.readmit.code (withNumber 48 readmit) s) 0x18#8 .badArgument k.val := by
  rw [runCommand_number hn]
  refine runCommand_refused ho ?_ (by decide)
  rw [readmit, storeCode_target, hvalid]
  rfl

/-- Settles O22: READMIT by its three cases, a valid entry, an invalid one, and a number that names none. -/
theorem readmitForgetsThePresence : Obligations.ReadmitForgetsThePresence := by
  refine ⟨fun s k ho hn => ⟨fun hvalid => ?_, fun hvalid => ?_⟩, fun s ho hn => ?_⟩
  · refine ⟨_, congrArg Host.Outcome.next (readmit_valid ho hn hvalid), rfl, ⟨?_, fun j hj => ?_⟩, rfl⟩
    · rw [updWin_target, updTarget_target, if_pos rfl, storeCode_target]
    · rw [updWin_target, updTarget_target, if_neg hj, storeCode_target]
  · exact ⟨_, rfl, readmit_invalid ho hn hvalid⟩
  · exact ⟨_, rfl, runCommand_refused ho (withNumber_none hn) (by decide)⟩

/-! ### The word that is selected -/

theorem instanceOf_val {k : Nat} (i : Fin k) : instanceOf k i.val = some i := dif_pos i.isLt

theorem selected_of_selects {s : State} {id i w : Nat} (h : Selects s id i w) : s.selected = tableWord id i w := by
  obtain ⟨hid, hi, hw⟩ := h
  rw [State.selected, hid, hi, hw]

theorem tableWord_identity (k : TargetId) : tableWord 0 k.val 0 = some (.identity k) := by
  simp [tableWord, instanceOf_val]

theorem tableWord_policy (k : TargetId) : tableWord 0 k.val 1 = some (.policy k) := by
  simp [tableWord, instanceOf_val]

theorem tableWord_config (g : Seg) {w : Nat} (hw : w ≤ 2) : tableWord 3 g.val w = some (.config g w) := by
  simp [tableWord, instanceOf_val, show w < 3 by omega]

theorem tableWord_responder (e : EntryId) {w : Nat} (hw : w ≤ 1) : tableWord 4 e.val w = some (.responder e w) := by
  simp [tableWord, instanceOf_val, show w < 2 by omega]

theorem tableWord_staging (m : BoxId) {w : Nat} (h1 : 1 ≤ w) (h16 : w ≤ 16) : tableWord 6 m.val w = some (.staging m w) := by
  simp [tableWord, instanceOf_val, show w ≠ 0 by omega, show w < 17 by omega]

/-! ### The identity write -/

theorem execTargetIdentityWrite_selected {s : State} {k : TargetId} (v : Word) (ho : s.windowOpen = true) (hsel : Selects s 0 k.val 0) :
    exec (.targetIdentityWrite v) s = .next (writeIdentity k v s) := by
  have hs := (selected_of_selects hsel).trans (tableWord_identity k)
  refine congrArg Host.Outcome.next ((onWindow_open _ ho).trans ?_)
  simp only [hs]

theorem usable_iff (d : Identity) :
    d.usable = true ↔ 0x08 ≤ d.address.toNat ∧ d.address.toNat ≤ 0x77 ∧ d.segment.toNat ≤ 5 := by
  simp [Identity.usable, Config.lowAddress, Config.highAddress]

theorem duplicated_iff (s : State) (k : TargetId) (d : Identity) :
    s.duplicated k d = true ↔
      ∃ j, j ≠ k ∧ (s.target j).valid = true ∧ (s.target j).segment = d.segment ∧ (s.target j).address = d.address := by
  simp [State.duplicated, and_assoc]

theorem identity_eq_iff (d : Identity) (e : TargetEntry) :
    d = e.identity ↔ d.valid = e.valid ∧ d.segment = e.segment ∧ d.address = e.address := by
  cases d; simp [TargetEntry.identity]

theorem writeIdentity_refused {s : State} {k : TargetId} {v : Word} {st : TableStatus}
    (h : s.identityFault k (Identity.ofWord v) = some st) : TableRefused s (writeIdentity k v s) st := by
  rw [writeIdentity, h]; exact refused_spec st s

/-- An identity write that passes the checks and changes no field (R5). -/
theorem writeIdentity_same {s : State} {k : TargetId} {v : Word} (h : s.identityFault k (Identity.ofWord v) = none)
    (hsame : Identity.ofWord v = (s.target k).identity) : writeIdentity k v s = { s with win := accessed s .ok } := by
  rw [writeIdentity, h]
  exact congrArg (accepted .ok) (if_pos hsame)

/-- An identity write that passes the checks and changes a field (R4, R5). -/
theorem writeIdentity_changed {s : State} {k : TargetId} {v : Word} (h : s.identityFault k (Identity.ofWord v) = none)
    (hsame : Identity.ofWord v ≠ (s.target k).identity) :
    writeIdentity k v s = accepted .ok (changeIdentity k (Identity.ofWord v) s) := by
  rw [writeIdentity, h]
  exact congrArg (accepted .ok) (if_neg hsame)

/-- Settles O30: the model's checks are those of R4, read off the fields of the word, in the same order. -/
theorem identityWritesAreChecked : Obligations.IdentityWritesAreChecked := by
  intro s k v ho hsel valid segment address same inUse bad duplicate
  have hsame : Identity.ofWord v = (s.target k).identity ↔ same := identity_eq_iff _ _
  have hinUse : ((s.target k).refCount ≠ 0 ∧ Identity.ofWord v ≠ (s.target k).identity) ↔ inUse := and_congr_right fun _ => not_congr hsame
  have hbad : ((Identity.ofWord v).valid && !(Identity.ofWord v).usable) = true ↔ bad := by
    rw [Bool.and_eq_true, Bool.not_eq_true', ← Bool.not_eq_true, usable_iff]; rfl
  have hduplicate : ((Identity.ofWord v).valid && s.duplicated k (Identity.ofWord v)) = true ↔ duplicate := by
    rw [Bool.and_eq_true, duplicated_iff]; rfl
  have hnone : ¬ inUse → ¬ bad → ¬ duplicate → s.identityFault k (Identity.ofWord v) = none := fun h1 h2 h3 => by
    rw [State.identityFault, if_neg (mt hinUse.mp h1), if_neg (mt hbad.mp h2), if_neg (mt hduplicate.mp h3)]
  refine ⟨_, execTargetIdentityWrite_selected v ho hsel, fun h1 => ?_, fun h1 h2 => ?_, fun h1 h2 h3 => ?_, fun h1 h2 h3 h4 => ?_,
    fun h1 h2 h3 h4 => ?_⟩
  · exact writeIdentity_refused (if_pos (hinUse.mpr h1))
  · exact writeIdentity_refused ((if_neg (mt hinUse.mp h1)).trans (if_pos (hbad.mpr h2)))
  · exact writeIdentity_refused
      ((if_neg (mt hinUse.mp h1)).trans ((if_neg (mt hbad.mp h2)).trans (if_pos (hduplicate.mpr h3))))
  · exact writeIdentity_same (hnone h1 h2 h3) (hsame.mpr h4)
  · rw [writeIdentity_changed (hnone h1 h2 h3) (mt hsame.mp h4)]
    refine ⟨rfl, ⟨?_, fun j hj => ?_⟩, rfl⟩
    · rw [accepted_spec, updWin_target, changeIdentity, updTarget_target, if_pos rfl]; rfl
    · rw [accepted_spec, updWin_target, changeIdentity, updTarget_target, if_neg hj]

/-! ### The settings writes -/

theorem execTargetPolicyWrite_selected {s : State} {k : TargetId} (v : Word) (ho : s.windowOpen = true) (hsel : Selects s 0 k.val 1) :
    exec (.targetPolicyWrite v) s = .next (writePolicy k v s) := by
  have hs := (selected_of_selects hsel).trans (tableWord_policy k)
  refine congrArg Host.Outcome.next ((onWindow_open _ ho).trans ?_)
  simp only [hs]

theorem execSegmentConfigWrite_selected {s : State} {g : Seg} {w : Nat} (v : Word) (ho : s.windowOpen = true)
    (hsel : Selects s 3 g.val w) (hw : w ≤ 2) : exec (.segmentConfigWrite v) s = .next (writeConfig g w v s) := by
  have hs := (selected_of_selects hsel).trans (tableWord_config g hw)
  refine congrArg Host.Outcome.next ((onWindow_open _ ho).trans ?_)
  simp only [hs]

theorem execResponderEntryWrite_selected {s : State} {e : EntryId} {w : Nat} (v : Word) (ho : s.windowOpen = true)
    (hsel : Selects s 4 e.val w) (hw : w ≤ 1) : exec (.responderEntryWrite v) s = .next (writeResponder e w v s) := by
  have hs := (selected_of_selects hsel).trans (tableWord_responder e hw)
  refine congrArg Host.Outcome.next ((onWindow_open _ ho).trans ?_)
  simp only [hs]

theorem execStagingBytesWrite_selected {s : State} {m : BoxId} {w : Nat} (v : Word) (ho : s.windowOpen = true)
    (hsel : Selects s 6 m.val w) (h1 : 1 ≤ w) (h16 : w ≤ 16) : exec (.stagingBytesWrite v) s = .next (writeStaging m w v s) := by
  have hs := (selected_of_selects hsel).trans (tableWord_staging m h1 h16)
  refine congrArg Host.Outcome.next ((onWindow_open _ ho).trans ?_)
  simp only [hs]

theorem byteAt_setByte (b : Vector Byte 32) (i j : Nat) (x : Byte) (hj : j < 32) :
    byteAt (setByte b i x) j = if j = i then x else byteAt b j := by
  have hbyte : ∀ u : Vector Byte 32, byteAt u j = u[j] := fun u => by
    simp [byteAt, List.getD_eq_getElem?_getD, hj]
  rw [hbyte, hbyte, setByte, Vector.getElem_setIfInBounds]
  simp only [eq_comm]

/-- The bytes of a buffer after a write of one of its words. -/
theorem byteAt_setBufferWord (b : Vector Byte 32) (k j : Nat) (v : Word) (hj : j < 32) :
    byteAt (setBufferWord b k v) j =
      if j = 2 * k then v.extractLsb' 0 8 else if j = 2 * k + 1 then v.extractLsb' 8 8 else byteAt b j := by
  rw [setBufferWord, byteAt_setByte _ _ _ _ hj, byteAt_setByte _ _ _ _ hj]
  by_cases h : j = 2 * k
  · rw [if_neg (by omega), if_pos h, if_pos h]
  · rw [if_neg h, if_neg h]

theorem policyWritesAreStored (s : State) (k : TargetId) (v : Word) (ho : s.windowOpen = true) (hsel : Selects s 0 k.val 1) :
    ∃ t : State, exec (.targetPolicyWrite v) s = .next t ∧ t.win = accessed s .ok ∧
      OnlyEntry s t k { s.target k with
        retryLimit := v.extractLsb' 0 3, threshold := v.extractLsb' 4 4, speedClass := if v.getLsbD 8 then .fast else .standard } ∧
      t = { s with win := t.win, targets := t.targets } := by
  refine ⟨_, execTargetPolicyWrite_selected v ho hsel, rfl, ⟨?_, fun j hj => ?_⟩, rfl⟩
  · rw [writePolicy, accepted_spec, updWin_target, updTarget_target, if_pos rfl]; rfl
  · rw [writePolicy, accepted_spec, updWin_target, updTarget_target, if_neg hj]

theorem writeConfig_seg (g j : Seg) (i : Nat) (v : Word) (s : State) :
    (writeConfig g i v s).seg j = if j = g then { s.seg g with config := (s.seg g).config.store i v } else s.seg j := by
  rw [writeConfig, accepted_spec, updWin_seg, updSeg_seg]

theorem writeResponder_entry (e d : EntryId) (i : Nat) (v : Word) (s : State) :
    (writeResponder e i v s).entry d = if d = e then (s.entry e).store i v else s.entry d := by
  rw [writeResponder, accepted_spec, updWin_entry, updEntry_entry]

theorem writeStaging_box (m j : BoxId) (i : Nat) (v : Word) (s : State) :
    (writeStaging m i v s).box j =
      if j = m then { s.box m with staging := setBufferWord (s.box m).staging (i - 1) v } else s.box j := by
  rw [writeStaging, accepted_spec, updWin_box, updBox_box]

/-- Settles O31: each write hands its word to the store of its unit, which sets the fields of that word. -/
theorem settingsWritesAreStored : Obligations.SettingsWritesAreStored := by
  refine ⟨policyWritesAreStored, fun s g w v ho hsel hw => ?_, fun s e w v ho hsel hw => ?_, fun s m w v ho hsel h1 h16 => ?_⟩
  · refine ⟨_, execSegmentConfigWrite_selected v ho hsel hw, rfl, ⟨?_, fun j hj => ?_⟩, rfl, ?_⟩
    · rw [writeConfig_seg, if_pos rfl]
    · rw [writeConfig_seg, if_neg hj]
    · rw [writeConfig_seg, if_pos rfl]
      refine ⟨?_, ?_, ?_⟩ <;> rintro rfl <;> rfl
  · refine ⟨_, execResponderEntryWrite_selected v ho hsel hw, rfl, rfl, fun d hd => ?_, ?_⟩
    · rw [writeResponder_entry, if_neg hd]
    · rw [writeResponder_entry, if_pos rfl]
      refine ⟨?_, ?_⟩ <;> rintro rfl <;> rfl
  · refine ⟨_, execStagingBytesWrite_selected v ho hsel h1 h16, rfl, ⟨?_, fun j hj => ?_⟩, rfl, fun i hi => ?_⟩
    · rw [writeStaging_box, if_pos rfl]
    · rw [writeStaging_box, if_neg hj]
    · rw [writeStaging_box, if_pos rfl]
      exact byteAt_setBufferWord _ _ _ v hi

/-! ### The state after RST# -/

theorem reset_slot (n : SlotId) : State.reset.slot n = {} := replicate_getElem _ n

theorem reset_target (k : TargetId) : State.reset.target k = {} := replicate_getElem _ k

theorem reset_seg (g : Seg) : State.reset.seg g = {} := replicate_getElem _ g

theorem reset_box (m : BoxId) : State.reset.box m = {} := replicate_getElem _ m

theorem reset_engine (g : Seg) : State.reset.engine g = {} := by rw [State.engine, reset_seg]

theorem reset_ctx (g : Seg) : State.reset.ctx g = {} := by rw [State.ctx, reset_seg]

theorem reset_cleared : Cleared State.reset where
  slots := reset_slot
  refCount k := by rw [reset_target]
  failureCount k := by rw [reset_target]
  active g := by rw [reset_engine]
  glitchCount g := by rw [reset_seg]

theorem reset_workInv : WorkInv State.reset where
  queued n := by rw [reset_slot]; simp [State.reset]
  queuedOnce := List.nodup_nil
  listed g n := by rw [reset_seg, reset_slot]; simp
  listedOnce g := by rw [reset_seg]; exact List.nodup_nil
  engaged g n h := by rw [reset_engine] at h; cases h
  active _ n h := by rw [reset_slot] at h; cases h

theorem reset_signalInv : SignalInv State.reset := by constructor <;> decide

theorem idle_engineInv : EngineInv {} := by constructor <;> decide

theorem dark_segmentInv : SegmentInv {} := by constructor <;> decide

theorem empty_boxInv : BoxInv {} := by constructor <;> decide

theorem reset_powerInv : PowerInv State.reset where
  engines g := by rw [reset_engine]; exact idle_engineInv
  offline g h := by rw [reset_seg] at h; cases h
  segments _ _ g := by rw [reset_seg]; exact dark_segmentInv

/-- Every context is in LISTEN and every buffer EMPTY, so no transfer is there to share one. -/
theorem reset_mailboxInv : MailboxInv State.reset := by
  refine ⟨fun m => by rw [reset_box]; exact empty_boxInv, ?_, ?_, ?_, ?_, ?_, ?_, ?_, ?_, ?_⟩ <;>
    simp [writesTo, readsFrom, holdsOn, reset_ctx, reset_box]

/-- Settles O4: after RST# every slot is FREE, every entry invalid, every segment DARK and every mailbox EMPTY. -/
theorem resetMeetsTheInvariants : Obligations.ResetMeetsTheInvariants :=
  ⟨identityInv_of_invalid fun k => by rw [reset_target], reset_workInv, referenceInv_of_cleared reset_cleared, reset_signalInv,
    reset_powerInv, reset_mailboxInv, countInv_of_cleared reset_cleared⟩

end Sys2Proof.Machine
end

section
/-! SUPPORT. The work of a state as WorkInv sees it, where every slot stands, with the moves that a row can make in it; each move is shown once to
leave every slot where its state says. -/

namespace Sys2Proof.Machine

open Sys2Proof.Safety

/-! ### The work of a state -/

/-- What WorkInv reads: the queue, the state and the latched segment of every slot, the list and the active slot of every segment, and whether a
DEVICE_RESET runs. -/
@[ext] structure Work where
  queue : List SlotId
  state : SlotId → SlotState
  home : SlotId → Seg
  list : Seg → List SlotId
  active : Seg → Option SlotId
  busy : Bool

/-- The work of a state. -/
def State.work (s : State) : Work where
  queue := s.cq.queue
  state n := (s.slot n).state
  home n := (s.slot n).segment
  list g := (s.seg g).list
  active g := (s.engine g).active
  busy := s.win.resetBusy

/-- Slot n stands where its state says, and nowhere else. -/
structure Work.Placed (w : Work) (n : SlotId) : Prop where
  queued : n ∈ w.queue ↔ w.state n = .done
  listed : ∀ g : Seg, n ∈ w.list g ↔ w.state n = .pending ∧ w.home n = g
  engaged : ∀ g : Seg, w.active g = some n → w.state n = .active ∧ w.home n = g
  active : w.busy = false → w.state n = .active → w.active (w.home n) = some n

/-- Every slot stands where its state says, once. -/
structure Work.Ordered (w : Work) : Prop where
  queuedOnce : w.queue.Nodup
  listedOnce : ∀ g : Seg, (w.list g).Nodup
  placed : ∀ n : SlotId, w.Placed n

theorem workInv_iff (s : State) : WorkInv s ↔ s.work.Ordered := by
  constructor
  · intro h
    exact ⟨h.queuedOnce, h.listedOnce, fun n => ⟨h.queued n, fun g => h.listed g n, fun g => h.engaged g n, fun hb => h.active hb n⟩⟩
  · intro h
    exact ⟨fun n => (h.placed n).queued, h.queuedOnce, fun g n => (h.placed n).listed g, h.listedOnce,
      fun g n => (h.placed n).engaged g, fun hb n => (h.placed n).active hb⟩

/-- From w to v nothing has become of slot n. -/
structure Work.Untouched (w v : Work) (n : SlotId) : Prop where
  queue : n ∈ v.queue ↔ n ∈ w.queue
  state : v.state n = w.state n
  home : v.home n = w.home n
  list : ∀ g : Seg, n ∈ v.list g ↔ n ∈ w.list g
  active : ∀ g : Seg, v.active g = some n ↔ w.active g = some n

theorem Work.Placed.of_untouched {w v : Work} {n : SlotId} (h : w.Placed n) (hu : w.Untouched v n) (hb : v.busy = w.busy) : v.Placed n where
  queued := by rw [hu.queue, hu.state]; exact h.queued
  listed g := by rw [hu.list, hu.state, hu.home]; exact h.listed g
  engaged g := by rw [hu.active, hu.state, hu.home]; exact h.engaged g
  active hv := by rw [hu.state, hu.home, hu.active]; exact h.active (hb ▸ hv)

/-- A move of one slot: the others stay, and it stands where its new state says. -/
theorem Work.Ordered.of_move {w v : Work} (h : w.Ordered) (n : SlotId) (hb : v.busy = w.busy) (others : ∀ m, m ≠ n → w.Untouched v m)
    (self : v.Placed n) (queuedOnce : v.queue.Nodup) (listedOnce : ∀ g, (v.list g).Nodup) : v.Ordered := by
  refine ⟨queuedOnce, listedOnce, fun m => ?_⟩
  by_cases hm : m = n
  · exact hm ▸ self
  · exact (h.placed m).of_untouched (others m hm) hb

namespace Work.Placed

variable {w : Work} {n : SlotId}

theorem not_queued (h : w.Placed n) (hs : w.state n ≠ .done) : n ∉ w.queue := fun hn => hs (h.queued.mp hn)

theorem not_listed (h : w.Placed n) (hs : w.state n ≠ .pending) (g : Seg) : n ∉ w.list g := fun hn => hs ((h.listed g).mp hn).1

theorem not_engaged (h : w.Placed n) (hs : w.state n ≠ .active) (g : Seg) : w.active g ≠ some n := fun hn => hs (h.engaged g hn).1

end Work.Placed

/-! ### The moves -/

/-- Slot n takes a state and a latched segment. -/
@[simps] def Work.put (w : Work) (n : SlotId) (st : SlotState) (g : Seg) : Work :=
  { w with state := Function.update w.state n st, home := Function.update w.home n g }

/-- Slot n becomes DONE, and its record joins the queue. -/
@[simps] def Work.complete (w : Work) (n : SlotId) : Work :=
  { w with queue := w.queue ++ [n], state := Function.update w.state n .done }

/-- The list of segment g changes. -/
@[simps] def Work.relist (w : Work) (g : Seg) (ns : List SlotId) : Work := { w with list := Function.update w.list g ns }

/-- The engine of g takes an active slot, or gives it up. -/
@[simps] def Work.engage (w : Work) (g : Seg) (a : Option SlotId) : Work := { w with active := Function.update w.active g a }

/-- The head record leaves the queue, which is then ns. -/
@[simps] def Work.dequeue (w : Work) (ns : List SlotId) : Work := { w with queue := ns }

/-- Every slot of the list of g completes, in list order. -/
@[simps] def Work.drain (w : Work) (g : Seg) : Work :=
  { w with
    queue := w.queue ++ w.list g, state := fun n => if n ∈ w.list g then .done else w.state n
    list := Function.update w.list g [] }

/-- The active slot of g completes, if there is one. -/
def Work.endActive (w : Work) (g : Seg) : Work :=
  match w.active g with
  | some n => w.complete n
  | none => w

/-- The active slot of g completes and its engine lets go of it. -/
def Work.finish (w : Work) (g : Seg) : Work := (w.endActive g).engage g none

theorem Work.put_put (w : Work) (n : SlotId) (a b : SlotState) (g h : Seg) : (w.put n a g).put n b h = w.put n b h := by
  simp [Work.put]

theorem Work.put_self (w : Work) (n : SlotId) : w.put n (w.state n) (w.home n) = w := by simp [Work.put]

theorem Work.relist_self (w : Work) (g : Seg) : w.relist g (w.list g) = w := by simp [Work.relist]

theorem Work.engage_self (w : Work) (g : Seg) : w.engage g (w.active g) = w := by simp [Work.engage]

/-- An engine without an active slot has nothing to let go of. -/
theorem Work.engage_none {w : Work} {g : Seg} (h : w.active g = none) : w.engage g none = w := h ▸ w.engage_self g

theorem Work.finish_of_some {w : Work} {g : Seg} {n : SlotId} (h : w.active g = some n) : w.finish g = (w.complete n).engage g none := by
  rw [Work.finish, Work.endActive, h]

theorem Work.finish_of_none {w : Work} {g : Seg} (h : w.active g = none) : w.finish g = w := by
  rw [Work.finish, Work.endActive, h]; exact engage_none h

/-! ### What a move leaves untouched -/

namespace Work.Untouched

variable {w v u : Work} {n m : SlotId} {g : Seg}

theorem trans (h : w.Untouched v m) (k : v.Untouched u m) : w.Untouched u m where
  queue := k.queue.trans h.queue
  state := k.state.trans h.state
  home := k.home.trans h.home
  list j := (k.list j).trans (h.list j)
  active j := (k.active j).trans (h.active j)

theorem put (st : SlotState) (g : Seg) (hm : m ≠ n) : w.Untouched (w.put n st g) m := by
  constructor <;> simp [hm]

theorem complete (hm : m ≠ n) : w.Untouched (w.complete n) m := by
  constructor <;> simp [hm]

theorem dequeue {ns : List SlotId} (hq : w.queue = n :: ns) (hm : m ≠ n) : w.Untouched (w.dequeue ns) m := by
  constructor <;> simp [hq, hm]

theorem relist {ns : List SlotId} (h : m ∈ ns ↔ m ∈ w.list g) : w.Untouched (w.relist g ns) m := by
  refine ⟨Iff.rfl, rfl, rfl, fun j => ?_, fun _ => Iff.rfl⟩
  by_cases hj : j = g
  · subst hj; simpa using h
  · simp [hj]

theorem engage {a : Option SlotId} (hw : w.active g ≠ some m) (ha : a ≠ some m) : w.Untouched (w.engage g a) m := by
  refine ⟨Iff.rfl, rfl, rfl, fun _ => Iff.rfl, fun j => ?_⟩
  by_cases hj : j = g
  · subst hj; simp [hw, ha]
  · simp [hj]

end Work.Untouched

theorem nodup_append_singleton {l : List SlotId} {n : SlotId} (h : l.Nodup) (hn : n ∉ l) : (l ++ [n]).Nodup := by
  simpa using List.Nodup.concat hn h

theorem Work.relist_nodup {w : Work} {g : Seg} {ns : List SlotId} (h : ∀ j, (w.list j).Nodup) (hns : ns.Nodup) (j : Seg) :
    ((w.relist g ns).list j).Nodup := by
  by_cases hj : j = g
  · subst hj; simpa using hns
  · simpa [hj] using h j

/-! ### Every move leaves every slot where its state says -/

namespace Work.Ordered

variable {w : Work}

/-- A slot that nothing has in hand takes another state of that kind (R33, R34). -/
theorem put (h : w.Ordered) {n : SlotId} {st : SlotState} (g : Seg) (hs : w.state n = .free ∨ w.state n = .staged)
    (ht : st = .free ∨ st = .staged) : (w.put n st g).Ordered := by
  have hn := h.placed n
  have hq : n ∉ w.queue := hn.not_queued (by rcases hs with hs | hs <;> simp [hs])
  have hl : ∀ j, n ∉ w.list j := hn.not_listed (by rcases hs with hs | hs <;> simp [hs])
  have ha : ∀ j, w.active j ≠ some n := hn.not_engaged (by rcases hs with hs | hs <;> simp [hs])
  refine h.of_move n rfl (fun m hm => .put st g hm) ?_ h.queuedOnce h.listedOnce
  rcases ht with rfl | rfl <;> constructor <;> simp [hq, hl, ha]

/-- A STAGED slot joins the tail of a list (R37). -/
theorem post (h : w.Ordered) {n : SlotId} (g : Seg) (hs : w.state n = .staged) :
    ((w.put n .pending g).relist g (w.list g ++ [n])).Ordered := by
  have hn := h.placed n
  have hq : n ∉ w.queue := hn.not_queued (by simp [hs])
  have hl : ∀ j, n ∉ w.list j := hn.not_listed (by simp [hs])
  have ha : ∀ j, w.active j ≠ some n := hn.not_engaged (by simp [hs])
  refine h.of_move n rfl (fun m hm => (Untouched.put .pending g hm).trans (.relist (by simp [hm]))) ?_ h.queuedOnce
    (relist_nodup h.listedOnce (nodup_append_singleton (h.listedOnce g) (hl g)))
  refine ⟨by simp [hq], fun j => ?_, by simp [ha], by simp⟩
  by_cases hj : j = g
  · subst hj; simp
  · simp [hj, hl, Ne.symm hj]

/-- A STAGED slot completes at once (R38). -/
theorem postDone (h : w.Ordered) {n : SlotId} (g : Seg) (hs : w.state n = .staged) : ((w.put n .staged g).complete n).Ordered := by
  have hn := h.placed n
  have hl : ∀ j, n ∉ w.list j := hn.not_listed (by simp [hs])
  have ha : ∀ j, w.active j ≠ some n := hn.not_engaged (by simp [hs])
  refine h.of_move n rfl (fun m hm => (Untouched.put .staged g hm).trans (.complete hm)) ?_
    (nodup_append_singleton h.queuedOnce (hn.not_queued (by simp [hs]))) h.listedOnce
  constructor <;> simp [hl, ha]

/-- The head of a list is PENDING there, and in no other list. -/
theorem head (h : w.Ordered) {n : SlotId} {g : Seg} {ns : List SlotId} (hl : w.list g = n :: ns) :
    w.state n = .pending ∧ w.home n = g ∧ n ∉ ns ∧ ns.Nodup := by
  obtain ⟨hs, hhome⟩ := ((h.placed n).listed g).mp (by simp [hl])
  have honce := List.nodup_cons.mp (hl ▸ h.listedOnce g)
  exact ⟨hs, hhome, honce.1, honce.2⟩

/-- Once the head has left its list it is in none. -/
theorem head_not_listed (h : w.Ordered) {n : SlotId} {g : Seg} {ns : List SlotId} (hl : w.list g = n :: ns) (j : Seg) :
    n ∉ (w.relist g ns).list j := by
  obtain ⟨-, hhome, hrest, -⟩ := h.head hl
  by_cases hj : j = g
  · subst hj; simpa using hrest
  · simp [hj, (h.placed n).listed, hhome, Ne.symm hj]

/-- The head of a list completes (R47). -/
theorem completeHead (h : w.Ordered) {n : SlotId} {g : Seg} {ns : List SlotId} (hl : w.list g = n :: ns) :
    ((w.relist g ns).complete n).Ordered := by
  have hn := h.placed n
  obtain ⟨hs, -, -, hrest⟩ := h.head hl
  have hlist : ∀ j, n ∉ ((w.relist g ns).complete n).list j := h.head_not_listed hl
  have ha : ∀ j, w.active j ≠ some n := hn.not_engaged (by simp [hs])
  refine h.of_move n rfl (fun m hm => (Untouched.relist (by simp [hl, hm])).trans (.complete hm)) ?_
    (nodup_append_singleton h.queuedOnce (hn.not_queued (by simp [hs]))) (relist_nodup h.listedOnce hrest)
  exact ⟨by simp, fun j => iff_of_false (hlist j) (by simp), by simp [ha], by simp⟩

/-- The head of a list becomes the active slot of its engine (R48). -/
theorem promote (h : w.Ordered) {n : SlotId} {g : Seg} {ns : List SlotId} (hl : w.list g = n :: ns) (hidle : w.active g = none) :
    (((w.put n .active g).relist g ns).engage g (some n)).Ordered := by
  have hn := h.placed n
  obtain ⟨hs, -, -, hrest⟩ := h.head hl
  have hlist : ∀ j, n ∉ (((w.put n .active g).relist g ns).engage g (some n)).list j := h.head_not_listed hl
  have ha : ∀ j, w.active j ≠ some n := hn.not_engaged (by simp [hs])
  refine h.of_move n rfl (fun m hm => ?_) ?_ h.queuedOnce (relist_nodup h.listedOnce hrest)
  · exact ((Untouched.put .active g hm).trans (.relist (by simp [hl, hm]))).trans (.engage (by simp [hidle]) (by simpa using hm.symm))
  · refine ⟨by simp [hn.not_queued, hs], fun j => iff_of_false (hlist j) (by simp), fun j => ?_, by simp⟩
    by_cases hj : j = g
    · subst hj; simp
    · simp [hj, ha]

/-- The active slot completes as its engine lets go of it (R76). -/
theorem finish (h : w.Ordered) (g : Seg) : (w.finish g).Ordered := by
  cases hact : w.active g with
  | none => rw [Work.finish_of_none hact]; exact h
  | some n =>
    have hn := h.placed n
    obtain ⟨hs, hhome⟩ := hn.engaged g hact
    have hl : ∀ j, n ∉ w.list j := hn.not_listed (by simp [hs])
    rw [Work.finish_of_some hact]
    refine h.of_move n rfl (fun m hm => ?_) ⟨by simp, by simp [hl], fun j hj => ?_, by simp⟩
      (nodup_append_singleton h.queuedOnce (hn.not_queued (by simp [hs]))) h.listedOnce
    · exact (Untouched.complete hm).trans (.engage (by simpa [hact] using hm.symm) (by simp))
    · by_cases hjg : j = g
      · subst hjg; simp at hj
      · exact absurd (hhome.symm.trans (hn.engaged j (by simpa [hjg] using hj)).2) (Ne.symm hjg)

/-- The head record leaves the queue, and its slot is FREE (R118, R40). -/
theorem retire (h : w.Ordered) {n : SlotId} {ns : List SlotId} (hq : w.queue = n :: ns) :
    ((w.put n .free (w.home n)).dequeue ns).Ordered := by
  have hn := h.placed n
  have hs : w.state n = .done := hn.queued.mp (by simp [hq])
  have hl : ∀ j, n ∉ w.list j := hn.not_listed (by simp [hs])
  have ha : ∀ j, w.active j ≠ some n := hn.not_engaged (by simp [hs])
  have honce := List.nodup_cons.mp (hq ▸ h.queuedOnce)
  refine h.of_move n rfl (fun m hm => (Untouched.put .free _ hm).trans (.dequeue hq hm)) ?_ honce.2 h.listedOnce
  constructor <;> simp [hl, ha, honce.1]

/-- A list drains into the queue (R57): its slots are PENDING, so none of them stands there already. -/
theorem drain (h : w.Ordered) (g : Seg) : (w.drain g).Ordered := by
  have hpending : ∀ n, n ∈ w.list g → w.state n = .pending ∧ w.home n = g := fun n hn => ((h.placed n).listed g).mp hn
  refine ⟨List.nodup_append.mpr ⟨h.queuedOnce, h.listedOnce g, ?_⟩, relist_nodup h.listedOnce List.nodup_nil, fun n => ?_⟩
  · rintro n hq m hm rfl
    exact (h.placed n).not_queued (by simp [(hpending n hm).1]) hq
  · have hn := h.placed n
    by_cases hm : n ∈ w.list g
    · obtain ⟨hs, hhome⟩ := hpending n hm
      refine ⟨by simp [hm], fun j => ?_, fun j hj => absurd hj (hn.not_engaged (by simp [hs]) j), by simp [hm]⟩
      by_cases hj : j = g
      · subst hj; simp [hm]
      · simp [hm, hj, hn.listed, hhome, Ne.symm hj]
    · have hlist : w.Untouched (w.relist g []) n := .relist (by simp [hm])
      exact hn.of_untouched ⟨by simp [hm], by simp [hm], rfl, hlist.list, fun _ => Iff.rfl⟩ rfl

/-- With every slot FREE there is no work. -/
theorem of_free (hq : w.queue = []) (hs : ∀ n, w.state n = .free) (hl : ∀ g, w.list g = []) (ha : ∀ g, w.active g = none) :
    w.Ordered := by
  refine ⟨hq ▸ List.nodup_nil, fun g => hl g ▸ List.nodup_nil, fun n => ?_⟩
  constructor <;> simp [hq, hs, hl, ha]

/-- DEVICE_RESET begins: every engine lets go, and its slot waits ACTIVE for the end of the reset (R91). -/
theorem beginReset (h : w.Ordered) : { w with active := fun _ => none, busy := true }.Ordered :=
  ⟨h.queuedOnce, h.listedOnce, fun n => ⟨(h.placed n).queued, (h.placed n).listed, by simp, by simp⟩⟩

end Work.Ordered

end Sys2Proof.Machine
end

section
/-! SUPPORT. What the updates of the state and the shared operations of Machine/Work.lean do to the work: an equation for each, in the moves of the
work. -/

namespace Sys2Proof.Machine

open Sys2Proof.Safety Sys2Proof.Claims

/-! ### The updates -/

theorem work_congr {s t : State} (hqueue : t.cq.queue = s.cq.queue) (hslots : t.slots = s.slots)
    (hlist : ∀ g, (t.seg g).list = (s.seg g).list) (hactive : ∀ g, (t.engine g).active = (s.engine g).active)
    (hbusy : t.win.resetBusy = s.win.resetBusy) : t.work = s.work := by
  have hslot : ∀ n, t.slot n = s.slot n := fun n => congrArg (fun v => v[n]) hslots
  ext1
  · exact hqueue
  · funext n; exact congrArg Slot.state (hslot n)
  · funext n; exact congrArg Slot.segment (hslot n)
  · funext g; exact hlist g
  · funext g; exact hactive g
  · exact hbusy

/-- A state that keeps the queue, the slots, the segments and reset-busy. -/
theorem work_of_eq {s t : State} (hqueue : t.cq.queue = s.cq.queue) (hslots : t.slots = s.slots) (hsegs : t.segs = s.segs)
    (hbusy : t.win.resetBusy = s.win.resetBusy) : t.work = s.work := by
  have hseg : ∀ g, t.seg g = s.seg g := fun g => congrArg (fun v => v[g]) hsegs
  exact work_congr hqueue hslots (fun g => by rw [hseg]) (fun g => by rw [State.engine, State.engine, hseg]) hbusy

/-- The state and the latched segment of slot n are all that a change of it can do to the work. -/
theorem updSlot_put (s : State) (n : SlotId) (f : Slot → Slot) :
    (s.updSlot n f).work = s.work.put n (f (s.slot n)).state (f (s.slot n)).segment := by
  ext1
  · rfl
  · funext m; by_cases hm : m = n <;> simp [State.work, hm]
  · funext m; by_cases hm : m = n <;> simp [State.work, hm]
  all_goals rfl

@[simp] theorem updSlot_work {s : State} {n : SlotId} {f : Slot → Slot} (hs : ∀ x, (f x).state = x.state)
    (hh : ∀ x, (f x).segment = x.segment) : (s.updSlot n f).work = s.work := by
  rw [updSlot_put, hs, hh]; exact s.work.put_self n

/-- The list and the active slot of segment g are all that a change of it can do to the work. -/
theorem updSeg_relist_engage (s : State) (g : Seg) (f : Segment → Segment) :
    (s.updSeg g f).work = (s.work.relist g (f (s.seg g)).list).engage g (f (s.seg g)).engine.active := by
  ext1
  · rfl
  · rfl
  · rfl
  · funext j; by_cases hj : j = g <;> simp [State.work, hj]
  · funext j; by_cases hj : j = g <;> simp [State.work, hj]
  · rfl

theorem updSeg_engage {s : State} {g : Seg} {f : Segment → Segment} {a : Option SlotId} (hl : (f (s.seg g)).list = (s.seg g).list)
    (ha : (f (s.seg g)).engine.active = a) : (s.updSeg g f).work = s.work.engage g a := by
  rw [updSeg_relist_engage, hl, ha]
  exact congrArg (fun w => Work.engage w g a) (s.work.relist_self g)

theorem updSeg_relist {s : State} {g : Seg} {f : Segment → Segment} {ns : List SlotId} (hl : (f (s.seg g)).list = ns)
    (ha : (f (s.seg g)).engine.active = (s.engine g).active) : (s.updSeg g f).work = s.work.relist g ns := by
  rw [updSeg_relist_engage, hl, ha]
  exact (s.work.relist g ns).engage_self g

@[simp] theorem updSeg_work {s : State} {g : Seg} {f : Segment → Segment} (hl : ∀ x, (f x).list = x.list)
    (ha : ∀ x, (f x).engine.active = x.engine.active) : (s.updSeg g f).work = s.work := by
  rw [updSeg_engage (hl _) (ha _)]; exact s.work.engage_self g

@[simp] theorem updEngine_work {s : State} {g : Seg} {f : Engine → Engine} (ha : ∀ e, (f e).active = e.active) :
    (s.updEngine g f).work = s.work := updSeg_work (fun _ => rfl) fun x => ha x.engine

@[simp] theorem updCtx_work (s : State) (g : Seg) (f : RxContext → RxContext) : (s.updCtx g f).work = s.work :=
  updSeg_work (fun _ => rfl) fun _ => rfl

@[simp] theorem updTarget_work (s : State) (k : TargetId) (f : TargetEntry → TargetEntry) : (s.updTarget k f).work = s.work := rfl

@[simp] theorem updEntryOf_work (s : State) (n : SlotId) (f : TargetEntry → TargetEntry) : (s.updEntryOf n f).work = s.work :=
  work_of_eq (by simp) (by simp) (by simp) (by simp)

@[simp] theorem updEntry_work (s : State) (e : EntryId) (f : MatchEntry → MatchEntry) : (s.updEntry e f).work = s.work := rfl

@[simp] theorem updBox_work (s : State) (m : BoxId) (f : Mailbox → Mailbox) : (s.updBox m f).work = s.work := rfl

@[simp] theorem updWin_work {s : State} {f : Window → Window} (h : ∀ w, (f w).resetBusy = w.resetBusy) : (s.updWin f).work = s.work :=
  work_of_eq rfl rfl rfl (h _)

@[simp] theorem updEv_work (s : State) (f : EventUnit → EventUnit) : (s.updEv f).work = s.work := rfl

@[simp] theorem updCq_work {s : State} {f : CompletionQueue → CompletionQueue} (h : ∀ q, (f q).queue = q.queue) :
    (s.updCq f).work = s.work :=
  work_of_eq (h _) rfl rfl rfl

@[simp] theorem raise_work (s : State) (e : EventFlag) : (s.raise e).work = s.work := rfl

/-! ### The completion of a slot -/

theorem completeSlot_work (n : SlotId) (st : Status) (s : State) : (completeSlot n st s).work = s.work.complete n := by
  ext1
  · exact completeSlot_queue s n st
  · funext m; by_cases hm : m = n <;> simp [State.work, completeSlot_slot, hm]
  · funext m; by_cases hm : m = n <;> simp [State.work, completeSlot_slot, hm]
  · funext g; simp [State.work]
  · funext g; simp [State.work]
  · simp [State.work]

@[simp] theorem completeActive_work (g : Seg) (st : Status) (s : State) : (completeActive g st s).work = s.work.endActive g := by
  unfold completeActive Work.endActive
  rw [show s.work.active g = (s.engine g).active from rfl]
  cases (s.engine g).active with
  | none => rfl
  | some n => exact completeSlot_work n st s

/-- An engine that goes to IDLE lets go of its slot. -/
theorem idleEngine_engage (g : Seg) (s : State) : (idleEngine g s).work = s.work.engage g none := updSeg_engage rfl rfl

theorem idleEngine_work {g : Seg} {s t : State} (hwork : t.work = s.work) (h : (s.engine g).active = none) :
    (idleEngine g t).work = s.work := by
  rw [idleEngine_engage, hwork]; exact Work.engage_none h

theorem finishSlot_work {g : Seg} {n : SlotId} (st : Status) {s : State} (h : s.work.active g = some n) :
    (finishSlot g n st s).work = s.work.finish g := by
  rw [finishSlot, idleEngine_engage, completeSlot_work, Work.finish_of_some h]

/-! ### Contexts, departures and the way into RECOVERY -/

@[simp] theorem endPhase_work (g : Seg) (s : State) : (endPhase g s).work = s.work := work_of_eq (by simp) (by simp) (by simp) (by simp)

@[simp] theorem contextStart_work (g : Seg) (s : State) : (contextStart g s).work = s.work := by simp [contextStart]

@[simp] theorem contextStop_work (g : Seg) (s : State) : (contextStop g s).work = s.work := by simp [contextStop]

@[simp] theorem endContext_work (g : Seg) (s : State) : (endContext g s).work = s.work := by
  have hseg := endContext_seg g
  refine work_congr (by simp) (by simp) (fun j => ?_) (fun j => ?_) (by simp)
  · rw [hseg]; split
    · rename_i h; rw [h]
    · rfl
  · rw [State.engine, hseg]; split
    · rename_i h; rw [h]; rfl
    · rfl

@[simp] theorem releaseLines_work (g : Seg) (s : State) : (releaseLines g s).work = s.work := by simp [releaseLines]

@[simp] theorem enterState_work (g : Seg) (dest : SegState) (dm : DownMode) (s : State) : (enterState g dest dm s).work = s.work := by
  simp [enterState]

@[simp] theorem stopQualifier_work (g : Seg) (s : State) : (stopQualifier g s).work = s.work := by simp [stopQualifier]

/-- A departure ends the active slot of its segment, and leaves the list (R129). -/
@[simp] theorem depart_work (g : Seg) (dest : SegState) (dm : DownMode) (st : Status) (s : State) :
    (depart g dest dm st s).work = s.work.finish g := by
  rw [depart, endContext_work, enterState_work, idleEngine_engage, completeActive_work, releaseLines_work, Work.finish]

@[simp] theorem goDark_work (g : Seg) (s : State) : (goDark g s).work = s.work.finish g := by simp [goDark]

@[simp] theorem enterFaulted_work (g : Seg) (s : State) : (enterFaulted g s).work = s.work.finish g := by simp [enterFaulted]

@[simp] theorem settleIfPowered_work (g : Seg) (s : State) : (settleIfPowered g s).work = s.work := by
  unfold settleIfPowered; split <;> simp

@[simp] theorem enterRecovery_work (g : Seg) (s : State) : (enterRecovery g s).work = s.work := by simp [enterRecovery]

@[simp] theorem sendStart_work (g : Seg) (s : State) : (sendStart g s).work = s.work := by simp [sendStart]

@[simp] theorem meetBus_work (g : Seg) (held : Nat) (s : State) : (meetBus g held s).work = s.work := by
  unfold meetBus startBusyTimer
  split
  · simp
  · split
    · simp
    · split <;> simp

/-! ### The attempt -/

@[simp] theorem markAbsent_work (n : SlotId) (f : Failure) (s : State) : (markAbsent n f s).work = s.work := updEntryOf_work s n _

@[simp] theorem creditTarget_work (n : SlotId) (s : State) : (creditTarget n s).work = s.work := updEntryOf_work s n _

@[simp] theorem quarantine_work (n : SlotId) (s : State) : (quarantine n s).work = s.work := by
  unfold quarantine; split <;> simp

@[simp] theorem recordFailure_work (g : Seg) (n : SlotId) (f : Failure) (s : State) : (recordFailure g n f s).work = s.work := by
  unfold recordFailure countFailure; split <;> simp

theorem fixAttempt_work {g : Seg} {n : SlotId} {s : State} (h : s.work.active g = some n) : (fixAttempt g n s).work = s.work := by
  unfold fixAttempt
  rw [updSeg_engage rfl rfl, ← h, updSlot_work]
  · exact s.work.engage_self g
  all_goals exact fun _ => rfl

/-- From w to v the active slot of g stays in hand, or completes as the engine lets go of it. -/
def Work.MayFinish (w : Work) (g : Seg) (v : Work) : Prop := v = w ∨ v = w.finish g

theorem Work.MayFinish.ordered {w v : Work} {g : Seg} (h : w.MayFinish g v) (ho : w.Ordered) : v.Ordered := by
  rcases h with rfl | rfl
  · exact ho
  · exact ho.finish g

theorem finishSlot_mayFinish {g : Seg} {n : SlotId} (st : Status) {s : State} (h : s.work.active g = some n) :
    s.work.MayFinish g (finishSlot g n st s).work := .inr (finishSlot_work st h)

theorem beginAttempt_mayFinish (g : Seg) (held : Nat) (s : State) : s.work.MayFinish g (beginAttempt g held s).work := by
  unfold beginAttempt
  cases ha : (s.engine g).active with
  | none => exact .inl rfl
  | some n =>
    dsimp only
    cases (s.slot n).mark.status with
    | some st => exact finishSlot_mayFinish st ha
    | none =>
      dsimp only
      cases s.notBegun g n with
      | some f => simpa using finishSlot_mayFinish (s := markAbsent n f s) f.status (by rw [markAbsent_work]; exact ha)
      | none => exact .inl ((meetBus_work g held _).trans (fixAttempt_work ha))

theorem enterBackoff_mayFinish {g : Seg} {n : SlotId} {s : State} (h : s.work.active g = some n) :
    s.work.MayFinish g (enterBackoff g n s).work := by
  unfold enterBackoff
  cases (s.slot n).mark.status with
  | some st => exact finishSlot_mayFinish st h
  | none => exact .inl (updSeg_work (fun _ => rfl) fun _ => rfl)

theorem enterPollWait_mayFinish {g : Seg} {n : SlotId} {s : State} (h : s.work.active g = some n) :
    s.work.MayFinish g (enterPollWait g n s).work := by
  unfold enterPollWait
  cases (s.slot n).mark.status with
  | some st => exact finishSlot_mayFinish st h
  | none => exact .inl (updSeg_work (fun _ => rfl) fun _ => rfl)

/-- The evaluation gives the slot up, or leaves it to another attempt (R96). -/
theorem evaluateFailure_mayFinish (g : Seg) (f : Failure) (s : State) : s.work.MayFinish g (evaluateFailure g f s).work := by
  unfold evaluateFailure
  cases ha : (s.engine g).active with
  | none => exact .inl rfl
  | some n =>
    have hr : (recordFailure g n f s).work.active g = some n := by rw [recordFailure_work]; exact ha
    rw [← recordFailure_work g n f s]
    dsimp only
    split
    · exact finishSlot_mayFinish _ hr
    · split
      · simpa using finishSlot_mayFinish (s := quarantine n (recordFailure g n f s)) f.status (by rw [quarantine_work]; exact hr)
      · split
        · simpa using finishSlot_mayFinish (s := markAbsent n f (recordFailure g n f s)) f.status (by rw [markAbsent_work]; exact hr)
        · exact enterBackoff_mayFinish hr

theorem comparePoll_mayFinish {g : Seg} {n : SlotId} {s : State} (h : s.work.active g = some n) :
    s.work.MayFinish g (comparePoll g n s).work := by
  have hused : (s.updSlot n (fun x => { x with pollsUsed := x.pollsUsed + 1 })).work = s.work := by simp
  unfold comparePoll
  split
  · exact finishSlot_mayFinish _ h
  · rw [← hused] at h ⊢
    dsimp only
    split
    · exact finishSlot_mayFinish _ h
    · exact enterPollWait_mayFinish h

theorem succeed_mayFinish {g : Seg} {n : SlotId} {s : State} (h : s.work.active g = some n) :
    s.work.MayFinish g (succeed g n s).work := by
  rw [← creditTarget_work n s] at h ⊢
  unfold succeed
  dsimp only
  split
  · exact comparePoll_mayFinish h
  · exact finishSlot_mayFinish _ h

/-! ### Steps on the wire and marks -/

@[simp] theorem stepEngine_work {g : Seg} {f : Engine → Engine} {s : State} (ha : ∀ e, (f e).active = e.active) :
    (stepEngine g f s).work = s.work := updSeg_work (fun _ => rfl) fun x => ha x.engine

@[simp] theorem goTo_work (g : Seg) (pos : BytePos) (s : State) : (goTo g pos s).work = s.work := by
  unfold goTo; cases pos <;> simp

@[simp] theorem stopRises_work (g : Seg) (s : State) : (stopRises g s).work = s.work := by simp [stopRises]

theorem closeByMark_work {g : Seg} {n : SlotId} (st : Status) (nack : Bool) {s : State} (h : s.work.active g = some n) :
    (closeByMark g n st nack s).work = s.work.finish g := by
  rw [closeByMark, stepEngine, updSeg_engage rfl rfl, completeSlot_work, Work.finish_of_some h]

theorem afterAck_mayFinish {g : Seg} {n : SlotId} (pos : BytePos) {s : State} (h : s.work.active g = some n) :
    s.work.MayFinish g (afterAck g n pos s).work := by
  unfold afterAck
  split
  · exact .inl (goTo_work g pos s)
  · split
    · exact .inr (closeByMark_work _ false h)
    · exact .inl (goTo_work g pos s)

theorem markTaken_mayFinish (g : Seg) (s : State) : s.work.MayFinish g (markTaken g s).work := by
  unfold markTaken
  cases ha : (s.engine g).active with
  | none => exact .inl rfl
  | some n =>
    dsimp only
    split
    · exact finishSlot_mayFinish _ ha
    · exact finishSlot_mayFinish _ ha
    · exact finishSlot_mayFinish _ ha
    · exact .inl rfl

end Sys2Proof.Machine
end

section
/-! SUPPORT. The work under the commands of the window. -/

namespace Sys2Proof.Machine

open Sys2Proof.Safety Sys2Proof.Claims

/-! ### How a command is carried out -/

/-- What is done under a condition and else leaves the state. -/
theorem work_if {c : Prop} [Decidable c] {s t : State} (h : c → t.work = s.work) : (if c then t else s).work = s.work := by
  split
  · rename_i hc; exact h hc
  · rfl

theorem mayFinish_if {c : Prop} [Decidable c] {s t : State} {g : Seg} (h : c → s.work.MayFinish g t.work) :
    s.work.MayFinish g (if c then t else s).work := by
  split
  · rename_i hc; exact h hc
  · exact .inl rfl

theorem ordered_if {c : Prop} [Decidable c] {s t : State} (hs : s.work.Ordered) (h : c → t.work.Ordered) :
    (if c then t else s).work.Ordered := by
  split
  · rename_i hc; exact h hc
  · exact hs

@[simp] theorem record_work (r : Reply) : r.record.work = r.state.work := by
  unfold Reply.record; split <;> simp

/-- A write of CMD leaves the work that its command leaves. -/
theorem runCommand_ordered {code : BitVec 8} {f : State → Reply} {s : State} (hs : s.work.Ordered)
    (h : s.windowOpen = true → (f (storeCode code s)).state.work.Ordered) : (runCommand code f s).work.Ordered :=
  ordered_if hs fun ho => by rw [record_work]; exact h ho

/-- A command with a number leaves the work that it leaves for each number in range; out of range it leaves all as it was. -/
theorem runNumber_ordered {code : BitVec 8} {k : Nat} {f : Fin k → State → Reply} {s : State} (hs : s.work.Ordered)
    (h : s.windowOpen = true → ∀ n, (f n (storeCode code s)).state.work.Ordered) : (runCommand code (withNumber k f) s).work.Ordered := by
  refine runCommand_ordered hs fun ho => ?_
  unfold withNumber
  split
  · exact h ho _
  · exact hs

theorem runNumber_same {code : BitVec 8} {k : Nat} {f : Fin k → State → Reply} {s : State} (hs : s.work.Ordered)
    (h : ∀ n t, (f n t).state.work = t.work) : (runCommand code (withNumber k f) s).work.Ordered :=
  runNumber_ordered hs fun _ n => by rw [h]; exact hs

/-! ### ALLOCATE, DISCARD, POST and RETIRE -/

theorem lowestFree_free {s : State} {n : SlotId} (h : s.lowestFree = some n) : (s.slot n).state = .free := by
  simpa using List.find?_some h

theorem allocate_ordered {s : State} (hs : s.work.Ordered) : (allocate s).state.work.Ordered := by
  unfold allocate
  cases hfree : s.lowestFree with
  | none => exact hs
  | some n =>
    dsimp only [accept]
    rw [updSlot_put]
    exact hs.put _ (.inl (lowestFree_free hfree)) (.inr rfl)

theorem discard_ordered {n : SlotId} {s : State} (hs : s.work.Ordered) : (discard n s).state.work.Ordered := by
  unfold discard
  split
  · rename_i hn
    dsimp only [accept]
    rw [updSlot_put]
    exact hs.put _ (.inr hn) (.inl rfl)
  · exact hs

theorem latchPost_work (n : SlotId) (g : Seg) (s : State) : (latchPost n g s).work = s.work.put n (s.slot n).state g := by
  rw [latchPost, updEntryOf_work, updSlot_put]

/-- A POST to the list of g: the slot is PENDING there, at the tail (R37). -/
theorem queuePost_work (n : SlotId) (g : Seg) (s : State) :
    (queuePost n g s).work = (s.work.put n .pending g).relist g (s.work.list g ++ [n]) := by
  have hlatched : ((latchPost n g s).slot n).segment = g := by rw [latchPost_slot, if_pos rfl]; rfl
  have hlist : (((latchPost n g s).updSlot n (fun x => { x with state := .pending })).seg g).list = s.work.list g := by
    rw [updSlot_seg, latchPost_seg]; rfl
  rw [queuePost, updSeg_relist (congrArg (· ++ [n]) hlist) rfl, updSlot_put, hlatched, latchPost_work, Work.put_put]

theorem acceptPost_ordered {n : SlotId} {g : Seg} {s : State} (hs : s.work.Ordered) (hn : (s.slot n).state = .staged) :
    (acceptPost n g s).work.Ordered := by
  unfold acceptPost
  dsimp only
  split
  · rw [completeSlot_work, latchPost_work, hn]
    exact hs.postDone g hn
  · exact queuePost_work n g s ▸ hs.post g hn

theorem post_ordered {n : SlotId} {s : State} (hs : s.work.Ordered) : (post n s).state.work.Ordered := by
  unfold post
  split
  · rename_i hn
    cases s.postFault n with
    | some f =>
      simpa [refuse] using hs
    | none =>
      cases segOf (s.entryOf n).segment with
      | some g => exact acceptPost_ordered hs hn
      | none => exact hs
  · exact hs

theorem retire_ordered {s : State} (hs : s.work.Ordered) : (retire s).state.work.Ordered := by
  cases hq : s.cq.queue with
  | nil => rw [retire, hq]; exact hs
  | cons n rest =>
    have hfreed := updSlot_put s n (fun x => { x with state := .free })
    have hwork : (retire s).state.work = (s.work.put n .free (s.work.home n)).dequeue rest := by
      rw [retire, hq]; exact congrArg (Work.dequeue · rest) hfreed
    exact hwork ▸ hs.retire hq

/-! ### ABORT and FLUSH_SEGMENT -/

@[simp] theorem setMark_work (k : Mark) (n : SlotId) (s : State) : (setMark k n s).work = s.work := by simp [setMark]

theorem foldl_setMark_work (k : Mark) (ns : List SlotId) (s : State) : (ns.foldl (fun t n => setMark k n t) s).work = s.work := by
  induction ns generalizing s with
  | nil => rfl
  | cons n ns ih => exact (ih _).trans (setMark_work k n s)

/-- A mark that is set may end the slot in the same event (R78). -/
theorem markTaken_ordered {g : Seg} {s t : State} (hs : s.work.Ordered) (ht : t.work = s.work) : (markTaken g t).work.Ordered :=
  (markTaken_mayFinish g t).ordered (ht ▸ hs)

theorem abort_ordered {n : SlotId} {s : State} (hs : s.work.Ordered) : (abort n s).state.work.Ordered := by
  have hmarked : (setMark .aborted n s).work.Ordered := by rw [setMark_work]; exact hs
  have hset : (if (s.slot n).mark = .none then accept
      (if (s.slot n).state = .active then markTaken (s.slot n).segment (setMark .aborted n s) else setMark .aborted n s) n.val
      else accept s n.val).state.work.Ordered := by
    split
    · exact ordered_if hmarked fun _ => markTaken_ordered hs (setMark_work _ n s)
    · exact hs
  unfold abort
  split
  · exact hset
  · exact hset
  all_goals exact hs

theorem flushSegment_ordered {g : Seg} {s : State} (hs : s.work.Ordered) : (flushSegment g s).state.work.Ordered :=
  markTaken_ordered hs (foldl_setMark_work .flushed _ s)

/-! ### The mailbox commands and READMIT -/

@[simp] theorem serveFill_work (g : Seg) (s : State) : (serveFill g s).work = s.work := by simp [serveFill]

theorem releaseInbound_work (m : BoxId) (s : State) : (releaseInbound m s).state.work = s.work := by
  unfold releaseInbound; split <;> rfl

theorem commitOutbound_work (m : BoxId) (s : State) : (commitOutbound m s).state.work = s.work := by
  unfold commitOutbound
  split
  · rfl
  · split
    · dsimp only [accept]
      cases s.holder m with
      | some g => simp [serveHeld, commitBytes]
      | none => rfl
    · rfl

theorem cancelOutbound_work (m : BoxId) (s : State) : (cancelOutbound m s).state.work = s.work := by
  unfold cancelOutbound
  split
  · rfl
  · rfl
  · cases s.holder m with
    | some g => exact serveFill_work g s
    | none => rfl

theorem readmit_work (k : TargetId) (s : State) : (readmit k s).state.work = s.work := by
  unfold readmit; split <;> rfl

/-! ### The commands on segments -/

theorem closeForOffline_work (g : Seg) (e : Engine) (s : State) : (closeForOffline g e s).work = s.work.engage g none := by
  unfold closeForOffline
  split
  · exact updSeg_engage rfl rfl
  · rw [idleEngine_engage, releaseLines_work]

/-- OFFLINE ends the active slot of a segment in service (R141). -/
theorem offline_mayFinish (g : Seg) (s : State) : s.work.MayFinish g (offline g s).state.work := by
  have hworking : (endContext g (enterState g .offline s.argMode
      (closeForOffline g (s.engine g) (completeActive g .segmentDown (stopQualifier g s))))).work = s.work.finish g := by
    rw [endContext_work, enterState_work, closeForOffline_work, completeActive_work, stopQualifier_work, Work.finish]
  unfold offline
  cases (s.seg g).state with
  | offline => exact .inl (updSeg_work (fun _ => rfl) fun _ => rfl)
  | up | recovering => exact .inr hworking
  | dark | settling | faulted => exact .inl (by simp [accept])

/-- ONLINE cuts off a stop that is still sent after OFFLINE; no slot waits for it (R88, R143). -/
theorem online_work {g : Seg} {s : State} (hidle : (s.seg g).state = .offline → (s.engine g).active = none) :
    (online g s).state.work = s.work := by
  unfold online
  split
  · rename_i hoff
    dsimp only [accept]
    rw [settleIfPowered_work, enterState_work]
    exact idleEngine_work (releaseLines_work g s) (hidle hoff)
  · rfl

/-- A row of completions, in the order of the list. -/
theorem foldl_completeSlot_work (st : Status) (ns : List SlotId) (s : State) :
    (ns.foldl (fun t n => completeSlot n st t) s).work =
      { s.work with queue := s.work.queue ++ ns, state := fun n => if n ∈ ns then .done else s.work.state n } := by
  induction ns generalizing s with
  | nil => simp
  | cons n ns ih =>
    rw [List.foldl_cons, ih, completeSlot_work]
    ext1
    · simp
    · funext m
      by_cases hm : m = n <;> simp [hm]
    all_goals rfl

theorem resetList_work (g : Seg) (s : State) : (resetList g s).work = s.work.drain g := by
  rw [resetList, updSeg_relist rfl rfl, foldl_completeSlot_work]; rfl

/-- SEGMENT_RESET completes the active slot and then the slots of the list (R144). -/
theorem clearSegment_work (g : Seg) (s : State) : (clearSegment g s).work = (s.work.finish g).drain g := by
  have hdrain : (clearSegment g s).work = (resetList g (idleEngine g (completeActive g .reset (releaseLines g s)))).work := by
    simp [clearSegment]
  rw [hdrain, resetList_work, idleEngine_engage, completeActive_work, releaseLines_work, Work.finish]

theorem segmentReset_ordered {g : Seg} {s : State} (hs : s.work.Ordered) : (segmentReset g s).state.work.Ordered := by
  have hclear : (clearSegment g s).work.Ordered := by rw [clearSegment_work]; exact (hs.finish g).drain g
  unfold segmentReset
  dsimp only [accept]
  split
  · exact hclear
  · rw [settleIfPowered_work, enterState_work]; exact hclear

end Sys2Proof.Machine
end

section
/-! SUPPORT. The work under the events of the wires, the timers and the power. -/

namespace Sys2Proof.Machine

open Sys2Proof.Safety Sys2Proof.Claims

/-- The row of an outcome leaves the work as it is. -/
def NextSame (s : State) (o : Host.Outcome State Fault Refusal) : Prop := ∃ t : State, o = .next t ∧ t.work = s.work

/-- The row of an outcome leaves the work as it is, or ends the active slot of g. -/
def NextMayFinish (s : State) (g : Seg) (o : Host.Outcome State Fault Refusal) : Prop :=
  ∃ t : State, o = .next t ∧ s.work.MayFinish g t.work

/-- The row of an outcome leaves every slot where its state says. -/
def NextOrdered (o : Host.Outcome State Fault Refusal) : Prop := ∃ t : State, o = .next t ∧ t.work.Ordered

theorem NextSame.ordered {s : State} {o : Host.Outcome State Fault Refusal} (h : NextSame s o) (hs : s.work.Ordered) : NextOrdered o := by
  obtain ⟨t, ho, hwork⟩ := h
  exact ⟨t, ho, hwork ▸ hs⟩

theorem NextMayFinish.ordered {s : State} {g : Seg} {o : Host.Outcome State Fault Refusal} (h : NextMayFinish s g o)
    (hs : s.work.Ordered) : NextOrdered o := by
  obtain ⟨t, ho, hwork⟩ := h
  exact ⟨t, ho, hwork.ordered hs⟩

theorem onWire_same {f : State → State} {s : State} (h : (f s).work = s.work) : NextSame s (.next (onWire f s)) :=
  ⟨_, rfl, work_if fun _ => h⟩

theorem onWire_mayFinish {f : State → State} {s : State} {g : Seg} (h : s.work.MayFinish g (f s).work) :
    NextMayFinish s g (.next (onWire f s)) :=
  ⟨_, rfl, mayFinish_if fun _ => h⟩

/-! ### Remote transfers -/

@[simp] theorem becomeBusy_active (x : Segment) : (becomeBusy x).active = x.engine.active := by
  unfold becomeBusy; split <;> rfl

theorem seeStart_work (g : Seg) (s : State) : (seeStart g s).work = s.work :=
  work_if fun _ => by dsimp only; split <;> simp

theorem seeStop_work (g : Seg) (s : State) : (seeStop g s).work = s.work :=
  work_if fun _ => by dsimp only; split <;> simp

theorem refuseAddress_work (g : Seg) (s : State) : (refuseAddress g s).work = s.work := by simp [refuseAddress, leaveAddress]

theorem answerWrite_work (g : Seg) (e : EntryId) (s : State) : (answerWrite g e s).work = s.work := by
  unfold answerWrite
  dsimp only
  split
  · simp
  · exact refuseAddress_work g s

theorem answerRead_work (g : Seg) (e : EntryId) (s : State) : (answerRead g e s).work = s.work := by
  unfold answerRead
  dsimp only
  split
  · simp
  · exact refuseAddress_work g s
  · split
    · simp
    · exact refuseAddress_work g s

theorem evaluateAddress_work (g : Seg) (b : Byte) (s : State) : (evaluateAddress g b s).work = s.work := by
  unfold evaluateAddress
  split
  · exact updCtx_work s g _
  · split
    · exact answerWrite_work g _ s
    · exact answerRead_work g _ s

theorem receiveByte_work (g : Seg) (m : BoxId) (b : Byte) (s : State) : (receiveByte g m b s).work = s.work := by
  unfold receiveByte
  split
  · simp
  · split <;> simp

theorem sendByte_work (g : Seg) (ack : Bool) (s : State) : (sendByte g ack s).work = s.work := by
  unfold sendByte
  dsimp only
  split
  · simp
  · split <;> simp

/-! ### The dispatch -/

theorem completeHead_ordered {g : Seg} {n : SlotId} {ns : List SlotId} {st : Status} {s : State} (hs : s.work.Ordered)
    (hl : (s.seg g).list = n :: ns) : (completeHead g n st s).work.Ordered := by
  have htail : (s.updSeg g (fun x => { x with list := x.list.tail })).work = s.work.relist g ns :=
    updSeg_relist (congrArg List.tail hl) rfl
  rw [completeHead, completeSlot_work, htail]
  exact hs.completeHead hl

/-- The head of the list becomes the active slot of an engine that has none, and its first attempt begins (R48, R65). -/
theorem promote_ordered {g : Seg} {n : SlotId} {ns : List SlotId} {held : Nat} {s : State} (hs : s.work.Ordered)
    (hl : (s.seg g).list = n :: ns) (hidle : (s.engine g).active = none) : (promote g n held s).work.Ordered := by
  refine (beginAttempt_mayFinish g held _).ordered ?_
  have hhome : (s.slot n).segment = g := (((hs.placed n).listed g).mp (by rw [show s.work.list g = n :: ns from hl]; simp)).2
  rw [updSeg_relist_engage, updSlot_put]
  simp only [updSlot_seg, hl, hhome]
  exact hs.promote hl hidle

theorem evaluateHead_ordered {g : Seg} {held : Nat} {n : SlotId} {ns : List SlotId} {s : State} (hs : s.work.Ordered)
    (hl : (s.seg g).list = n :: ns) (hidle : (s.engine g).active = none) : (evaluateHead g held n s).work.Ordered := by
  unfold evaluateHead
  split
  · exact completeHead_ordered hs hl
  · split
    · exact completeHead_ordered hs hl
    · split
      · exact completeHead_ordered hs hl
      · exact ordered_if hs fun _ => promote_ordered hs hl hidle

theorem execHeadEvaluation_ordered {g : Seg} {held : Nat} {s : State} (hs : s.work.Ordered) :
    NextOrdered (execHeadEvaluation g held s) := by
  refine ⟨_, rfl, ordered_if hs fun _ => ?_⟩
  dsimp only
  split
  · rename_i hl hidle
    exact evaluateHead_ordered hs hl hidle
  · exact hs

/-! ### The bytes of an attempt -/

theorem active_of_sending {s : State} {g : Seg} {n : SlotId} {pos : BytePos} (h : (s.engine g).sending = some (n, pos)) :
    s.work.active g = some n := by
  obtain ⟨-, -, ha, -⟩ := (sending_eq s g n pos).mp h
  exact ha

@[simp] theorem meetFailure_work (g : Seg) (f : Failure) (s : State) : (meetFailure g f s).work = s.work := by simp [meetFailure]

@[simp] theorem contextUnaddressed_work (g : Seg) (s : State) : (contextUnaddressed g s).work = s.work := updCtx_work s g _

@[simp] theorem learnAddressAck_work (n : SlotId) (s : State) : (learnAddressAck n s).work = s.work := updEntryOf_work s n _

/-- An address byte with its acknowledge: the attempt goes on, or a mark ends it (R70, R79). -/
theorem addressByte_mayFinish {g : Seg} {n : SlotId} (ack : Bool) (next : BytePos) {s : State} (h : s.work.active g = some n) :
    s.work.MayFinish g (if ack then afterAck g n next (learnAddressAck n (contextUnaddressed g s))
      else meetFailure g .nackAddress (contextUnaddressed g s)).work := by
  have hwork : (learnAddressAck n (contextUnaddressed g s)).work = s.work := by simp
  split
  · rw [← hwork] at h ⊢; exact afterAck_mayFinish next h
  · exact .inl (by simp)

theorem execEngineAddressByte_mayFinish (g : Seg) (ack : Bool) (s : State) : NextMayFinish s g (execEngineAddressByte g ack s) := by
  refine onWire_mayFinish ?_
  split
  · rename_i hsend; exact addressByte_mayFinish ack _ (active_of_sending hsend)
  · rename_i hsend; exact addressByte_mayFinish ack _ (active_of_sending hsend)
  · exact .inl rfl

theorem execEngineWriteByte_mayFinish (g : Seg) (ack : Bool) (s : State) : NextMayFinish s g (execEngineWriteByte g ack s) := by
  refine onWire_mayFinish ?_
  split
  · rename_i n i hsend
    have hwork : (s.updSlot n (fun x => { x with bytesAccepted := x.bytesAccepted + 1 })).work = s.work := by simp
    have hactive := active_of_sending hsend
    split
    · rw [← hwork] at hactive ⊢; exact afterAck_mayFinish _ hactive
    · exact .inl (meetFailure_work g _ s)
  · exact .inl rfl

@[simp] theorem appendRead_work (n : SlotId) (b : Byte) (s : State) : (appendRead n b s).work = s.work := by simp [appendRead]

theorem execEngineReadByte_mayFinish (g : Seg) (b : Byte) (s : State) : NextMayFinish s g (execEngineReadByte g b s) := by
  refine onWire_mayFinish ?_
  split
  · rename_i n i hsend
    split
    · exact .inl (by simp [endRead])
    · split
      · rw [← appendRead_work n b s]
        exact .inr (closeByMark_work _ true (by rw [appendRead_work]; exact active_of_sending hsend))
      · exact .inl (by simp)
  · exact .inl rfl

/-! ### Stops and arbitration -/

theorem execClosingStop_mayFinish (g : Seg) (s : State) : NextMayFinish s g (execClosingStop g s) := by
  refine onWire_mayFinish ?_
  split
  · rename_i n hsend
    rw [← stopRises_work g s]
    split
    · exact evaluateFailure_mayFinish g _ _
    · exact succeed_mayFinish (by rw [stopRises_work]; exact active_of_sending hsend)
  · exact .inl rfl

/-- An engine that closes the wire has no active slot (R80, R88). -/
theorem idle_of_closing {s : State} {g : Seg} (h : EngineInv (s.engine g)) (hc : (s.engine g).closing ≠ .none) :
    (s.engine g).active = none := (h.closes hc).1

/-- The stop after OFFLINE releases the lines of an engine that has no slot (R88). -/
theorem endOfflineClose_work {g : Seg} (rose : Bool) {s : State} (h : (s.engine g).active = none) :
    (endOfflineClose g rose s).work = s.work := by
  unfold endOfflineClose
  exact idleEngine_work (by simp) h

theorem execStopFailed_same {g : Seg} {s : State} (h : EngineInv (s.engine g)) : NextSame s (execStopFailed g s) := by
  refine onWire_same ?_
  split
  · exact enterRecovery_work g s
  · exact work_if fun hc => endOfflineClose_work false (idle_of_closing h (by simp [hc.2]))

theorem execMarkCloseStop_same {g : Seg} {s : State} (h : EngineInv (s.engine g)) : NextSame s (execMarkCloseStop g s) := by
  exact onWire_same (work_if fun hc => idleEngine_work (stopRises_work g s) (idle_of_closing h (by simp [hc.2])))

theorem execOfflineCloseStop_same {g : Seg} {s : State} (h : EngineInv (s.engine g)) : NextSame s (execOfflineCloseStop g s) :=
  onWire_same (work_if fun hc => endOfflineClose_work true (idle_of_closing h (by simp [hc.2])))

@[simp] theorem sampleLow_work (g : Seg) (s : State) : (sampleLow g s).work = s.work := by simp [sampleLow]

/-- A bit is lost in an attempt, which is evaluated, or in the NACK before a stop after a mark, where no slot is left (R85, R80). -/
theorem execArbitrationLost_mayFinish {g : Seg} {s : State} (h : EngineInv (s.engine g)) :
    NextMayFinish s g (execArbitrationLost g s) := by
  refine onWire_mayFinish ?_
  split
  · rw [← sampleLow_work g s]
    exact evaluateFailure_mayFinish g _ _
  · exact mayFinish_if fun hc => .inl (idleEngine_work (sampleLow_work g s) (idle_of_closing h (by simp [hc.2.1])))

/-! ### A held clock and recovery -/

theorem execStretchTimerExpiry_same (g : Seg) (s : State) : NextSame s (execStretchTimerExpiry g s) :=
  onWire_same (work_if fun _ => by simp)

theorem execClockReleased_same (g : Seg) (s : State) : NextSame s (execClockReleased g s) := onWire_same (work_if fun _ => by simp)

theorem execReleaseTimerExpiry_mayFinish (g : Seg) (s : State) : NextMayFinish s g (execReleaseTimerExpiry g s) :=
  onWire_mayFinish (mayFinish_if fun _ => .inr (by simp))

/-- A recovery that has freed the line evaluates the attempt, where there is a slot (R84). -/
theorem recovered_mayFinish (g : Seg) (s : State) : s.work.MayFinish g (recovered g s).work := by
  have hup : (enterState g .up .none (s.updSeg g (fun x => { x with known := false, sclHigh := true, sdaHigh := true }))).work =
      s.work := by simp
  unfold recovered
  dsimp only
  rw [← hup]
  split
  · exact evaluateFailure_mayFinish g _ _
  · rename_i hnone; exact .inl (idleEngine_work rfl hnone)

theorem execRecoveryPulse_mayFinish (g : Seg) (dataHigh : Bool) (s : State) : NextMayFinish s g (execRecoveryPulse g dataHigh s) := by
  refine onWire_mayFinish (mayFinish_if fun _ => ?_)
  dsimp only
  split
  · exact .inr (by simp)
  · exact .inl (by simp)

theorem execRecoveryStop_mayFinish (g : Seg) (rose : Bool) (s : State) : NextMayFinish s g (execRecoveryStop g rose s) := by
  refine onWire_mayFinish (mayFinish_if fun _ => ?_)
  dsimp only
  split
  · exact recovered_mayFinish g s
  · split
    · exact .inr (by simp)
    · exact .inl (by simp)

/-! ### The lines and the power -/

theorem engineClock_active (high : Bool) (x : Segment) : (engineClock high x).active = x.engine.active := by
  unfold engineClock
  split
  · split <;> rfl
  all_goals rfl

theorem waitingClock_active (high : Bool) (x : Segment) : (waitingClock high x).active = x.engine.active := by
  unfold waitingClock; split <;> rfl

theorem lineChange_list_active (line : Line) (high : Bool) (x : Segment) :
    (lineChange line high x).list = x.list ∧ (lineChange line high x).engine.active = x.engine.active := by
  unfold lineChange
  split
  · exact ⟨rfl, rfl⟩
  · split
    · exact ⟨rfl, rfl⟩
    · refine ⟨rfl, ?_⟩
      dsimp only
      split
      · exact engineClock_active high x
      · exact waitingClock_active high x

theorem execLineChangeOutsideTransfer_same (g : Seg) (line : Line) (high : Bool) (s : State) :
    NextSame s (execLineChangeOutsideTransfer g line high s) := by
  refine ⟨_, rfl, ?_⟩
  split
  · split
    · exact seeStop_work g s
    · exact seeStart_work g s
  · exact updSeg_work (fun x => (lineChange_list_active line high x).1) fun x => (lineChange_list_active line high x).2

@[simp] theorem recordLevel_work (g : Seg) (level : Bool) (s : State) : (recordLevel g level s).work = s.work := by simp [recordLevel]

theorem assertPower_work (g : Seg) (s : State) : (assertPower g s).work = s.work := by
  have hwatched : (if (s.seg g).glitchTimer.isSome then ignoreGlitch g s else s).work = s.work :=
    work_if fun _ => by simp [ignoreGlitch]
  unfold assertPower
  cases (s.seg g).state with
  | dark => exact settleIfPowered_work g s
  | up | recovering | faulted => exact hwatched
  | settling | offline => rfl

/-- A loss of power that is not watched for ends the active slot (R133). -/
theorem deassertPower_mayFinish (g : Seg) (s : State) : s.work.MayFinish g (deassertPower g s).work := by
  have hlost : s.work.MayFinish g (if (s.seg g).config.glitchWindow = 0 then goDark g s else startGlitchWatch g s).work := by
    split
    · exact .inr (goDark_work g s)
    · exact .inl (by simp [startGlitchWatch])
  unfold deassertPower
  cases (s.seg g).state with
  | settling => exact .inl (by simp)
  | up | recovering | faulted => exact hlost
  | dark | offline => exact .inl rfl

theorem execSpgAssert_same (g : Seg) (s : State) : NextSame s (execSpgAssert g s) := by
  refine ⟨_, rfl, ?_⟩
  split
  · rfl
  · exact (work_if fun _ => assertPower_work g _).trans (recordLevel_work g true s)

theorem execSpgDeassert_mayFinish (g : Seg) (s : State) : NextMayFinish s g (execSpgDeassert g s) := by
  refine ⟨_, rfl, mayFinish_if fun _ => ?_⟩
  rw [← recordLevel_work g false s]
  exact mayFinish_if fun _ => deassertPower_mayFinish g _

theorem execSettleTimerExpiry_same (g : Seg) (s : State) : NextSame s (execSettleTimerExpiry g s) :=
  onWire_same (work_if fun _ => by simp [reachUp])

theorem execGlitchTimerExpiry_mayFinish (g : Seg) (s : State) : NextMayFinish s g (execGlitchTimerExpiry g s) :=
  onWire_mayFinish (mayFinish_if fun _ => .inr (goDark_work g s))

end Sys2Proof.Machine
end

section
/-! SUPPORT. The work under the registers, the resets and the table port, and with them under every row. -/

namespace Sys2Proof.Machine

open Sys2Proof.Safety Sys2Proof.Claims

theorem onWindow_work {f : State → State} {s : State} (h : (f s).work = s.work) : (onWindow f s).work = s.work := work_if fun _ => h

theorem onWindow_same {f : State → State} {s : State} (h : (f s).work = s.work) : NextSame s (.next (onWindow f s)) :=
  ⟨_, rfl, onWindow_work h⟩

/-! ### Registers and timers of the window -/

@[simp] theorem signalQueue_work (s : State) : s.signalQueue.work = s.work := by simp [State.signalQueue]

@[simp] theorem startCoalescing_work (s : State) : s.startCoalescing.work = s.work := by rw [startCoalescing_eq]; rfl

theorem clearFlags_work (s : State) (ones : Word) : (s.clearFlags ones).work = s.work := by
  unfold State.clearFlags
  dsimp only
  split
  · split
    · simp
    · split <;> simp
  · simp

theorem configureQueue_work (s : State) (threshold : BitVec 6) (delay : Byte) : (s.configureQueue threshold delay).work = s.work := by
  unfold State.configureQueue
  dsimp only
  split <;> split
  · simp
  · simp
  all_goals split <;> simp

theorem writePlain_work (r : PlainRegister) (v : Word) (s : State) : (writePlain r v s).work = s.work := by
  cases r <;> rfl

theorem execTbloRead_same (s : State) : NextSame s (execTbloRead s) := by
  refine ⟨_, rfl, ?_⟩
  split <;> rfl

theorem execUndefinedWordAccess_same (word : Fin 8) (a : Access) (s : State) : NextSame s (execUndefinedWordAccess word a s) := by
  have hraised : (onWindow (fun s => s.raise .windowError) s).work = s.work := onWindow_work (raise_work s .windowError)
  refine ⟨_, rfl, ?_⟩
  cases a <;> exact hraised

theorem execTimeBaseCount_same (s : State) : NextSame s (execTimeBaseCount s) := by
  refine ⟨_, rfl, ?_⟩
  split <;> rfl

/-! ### The resets -/

theorem settleDark_work (s : State) (g : Seg) : (settleDark s g).work = s.work := work_if fun _ => settleIfPowered_work g s

theorem foldl_settleDark_work (gs : List Seg) (s : State) : (gs.foldl settleDark s).work = s.work := by
  induction gs generalizing s with
  | nil => rfl
  | cons g gs ih => exact (ih _).trans (settleDark_work s g)

/-- A reset leaves every slot FREE, every list and the queue empty, and no engine with a slot. -/
theorem ordered_of_cleared {s : State} (h : Cleared s) (hq : s.cq.queue = []) (hl : ∀ g, (s.seg g).list = []) : s.work.Ordered :=
  .of_free hq (fun n => congrArg Slot.state (h.slots n)) hl h.active

theorem rstValues_ordered (held : Bool) (s : State) : (rstValues held s).work.Ordered :=
  ordered_of_cleared (rstValues_cleared held s) rfl fun g => by rw [rstValues_seg]; rfl

theorem execRstEnd_ordered {s : State} (hs : s.work.Ordered) : NextOrdered (execRstEnd s) :=
  ⟨_, rfl, ordered_if hs fun _ => by rw [foldl_settleDark_work]; exact rstValues_ordered false s⟩

theorem beginReset_list_active (x : Segment) : x.beginReset.list = x.list ∧ x.beginReset.engine.active = none := by
  unfold Segment.beginReset
  dsimp only
  split <;> exact ⟨rfl, rfl⟩

theorem beginDeviceReset_work (s : State) : (beginDeviceReset s).work = { s.work with active := fun _ => none, busy := true } := by
  have hseg : ∀ g, (beginDeviceReset s).seg g = (s.seg g).beginReset := fun g => mapAll_getElem _ _ g
  ext1
  · rfl
  · rfl
  · rfl
  · funext g; exact (congrArg Segment.list (hseg g)).trans (beginReset_list_active _).1
  · funext g; exact (congrArg (fun x => x.engine.active) (hseg g)).trans (beginReset_list_active _).2
  · rfl

theorem execDeviceReset_ordered {s : State} (hs : s.work.Ordered) : NextOrdered (execDeviceReset s) :=
  ⟨_, rfl, ordered_if hs fun _ => by rw [beginDeviceReset_work]; exact hs.beginReset⟩

theorem endReset_list (x : Segment) : x.endReset.list = [] := by
  unfold Segment.endReset
  dsimp only
  split <;> rfl

theorem execDeviceResetEnd_ordered {s : State} (hs : s.work.Ordered) : NextOrdered (execDeviceResetEnd s) := by
  refine ⟨_, rfl, ordered_if hs fun _ => ?_⟩
  rw [endDeviceReset_eq, foldl_settleDark_work]
  exact ordered_of_cleared (deviceResetValues_cleared s) rfl fun g => by rw [deviceResetValues_seg]; exact endReset_list _

/-! ### The table port -/

theorem execTdataRead_same (s : State) : NextSame s (execTdataRead s) := by
  refine ⟨_, rfl, ?_⟩
  split
  · unfold tdataRead
    split <;> rfl
  · rfl

@[simp] theorem accepted_work (st : TableStatus) (s : State) : (accepted st s).work = s.work := rfl

@[simp] theorem refused_work (st : TableStatus) (s : State) : (refused st s).work = s.work := rfl

theorem writeIdentity_work (k : TargetId) (v : Word) (s : State) : (writeIdentity k v s).work = s.work := by
  unfold writeIdentity
  split
  · exact refused_work _ s
  · rw [accepted_work, storeIdentity]
    split <;> rfl

theorem store_segment (x : Slot) (i : Nat) (v : Word) : (x.store i v).segment = x.segment := by
  unfold Slot.store
  split <;> rfl

/-- The host-written fields are none of the work (R20). -/
theorem writeSlotField_work (n : SlotId) (i : Nat) (v : Word) (s : State) : (writeSlotField n i v s).work = s.work := by
  unfold writeSlotField
  split
  · simp [store_state, store_segment]
  · exact refused_work _ s

theorem writeConfig_work (g : Seg) (i : Nat) (v : Word) (s : State) : (writeConfig g i v s).work = s.work := by simp [writeConfig]

theorem tdataWrite_work (v : Word) (s : State) : (tdataWrite v s).work = s.work := by
  unfold tdataWrite
  split
  · exact writeIdentity_work _ v s
  · rfl
  · exact writeSlotField_work _ _ v s
  · exact writeConfig_work _ _ v s
  -- the responder entries, the staging bytes and what is refused are none of the work
  all_goals rfl

theorem execTargetIdentityWrite_same (v : Word) (s : State) : NextSame s (execTargetIdentityWrite v s) := by
  refine onWindow_same ?_
  split
  · exact writeIdentity_work _ v s
  · exact tdataWrite_work v s

theorem execTargetPolicyWrite_same (v : Word) (s : State) : NextSame s (execTargetPolicyWrite v s) := by
  refine onWindow_same ?_
  split
  · rfl
  · exact tdataWrite_work v s

theorem execSlotFieldWrite_same (v : Word) (s : State) : NextSame s (execSlotFieldWrite v s) := by
  refine onWindow_same ?_
  split
  · exact writeSlotField_work _ _ v s
  · exact tdataWrite_work v s

theorem execSegmentConfigWrite_same (v : Word) (s : State) : NextSame s (execSegmentConfigWrite v s) := by
  refine onWindow_same ?_
  split
  · exact writeConfig_work _ _ v s
  · exact tdataWrite_work v s

theorem execResponderEntryWrite_same (v : Word) (s : State) : NextSame s (execResponderEntryWrite v s) := by
  refine onWindow_same ?_
  split
  · rfl
  · exact tdataWrite_work v s

theorem execStagingBytesWrite_same (v : Word) (s : State) : NextSame s (execStagingBytesWrite v s) := by
  refine onWindow_same ?_
  split
  · rfl
  · exact tdataWrite_work v s

theorem execReadOnlyTableWrite_same (v : Word) (s : State) : NextSame s (execReadOnlyTableWrite v s) := by
  refine onWindow_same ?_
  split
  · split
    · exact refused_work _ s
    · exact tdataWrite_work v s
  · exact tdataWrite_work v s

theorem execTdataWriteOutOfRange_same (v : Word) (s : State) : NextSame s (execTdataWriteOutOfRange v s) := by
  refine onWindow_same ?_
  split
  · rfl
  · exact tdataWrite_work v s

/-! ### Every row -/

/-- While no reset is under way the engine of an OFFLINE segment has no active slot: it is IDLE, or sends the stop after OFFLINE (R88). -/
theorem idle_of_offline {s : State} (hp : PowerInv s) (ho : s.windowOpen = true) {g : Seg} (hoff : (s.seg g).state = .offline) :
    (s.engine g).active = none := by
  obtain ⟨hrst, hbusy⟩ := (windowOpen_iff s).mp ho
  have hseg := hp.segments hrst hbusy g
  have hengine := hp.engines g
  by_cases hidle : (s.engine g).state = .idle
  · rw [hengine.idle hidle]
  · obtain hup | ⟨-, hclosing⟩ := hseg.atWork hidle
    · simp [inService, hoff] at hup
    · exact idle_of_closing hengine (by rw [State.engine, hclosing]; simp)

/-- A write of CMD with the code of a command leaves every slot where its state says. -/
theorem writeCommand_ordered (c : Command) {s : State} (hp : PowerInv s) (hs : s.work.Ordered) : NextOrdered (writeCommand c s) := by
  cases c with
  | allocate => exact ⟨_, rfl, runCommand_ordered hs fun _ => allocate_ordered hs⟩
  | discard => exact ⟨_, rfl, runNumber_ordered hs fun _ _ => discard_ordered hs⟩
  | post => exact ⟨_, rfl, runNumber_ordered hs fun _ _ => post_ordered hs⟩
  | abort => exact ⟨_, rfl, runNumber_ordered hs fun _ _ => abort_ordered hs⟩
  | retire => exact ⟨_, rfl, runCommand_ordered hs fun _ => retire_ordered hs⟩
  | flushSegment => exact ⟨_, rfl, runNumber_ordered hs fun _ _ => flushSegment_ordered hs⟩
  | offline => exact ⟨_, rfl, runNumber_ordered hs fun _ g => (offline_mayFinish g _).ordered hs⟩
  | online =>
    refine ⟨_, rfl, runNumber_ordered hs fun ho g => ?_⟩
    rw [online_work (s := storeCode Command.online.code s) fun hoff => idle_of_offline hp ho hoff]; exact hs
  | segmentReset => exact ⟨_, rfl, runNumber_ordered hs fun _ _ => segmentReset_ordered hs⟩
  | readmit => exact ⟨_, rfl, runNumber_same hs readmit_work⟩
  | releaseInbound => exact ⟨_, rfl, runNumber_same hs releaseInbound_work⟩
  | commitOutbound => exact ⟨_, rfl, runNumber_same hs commitOutbound_work⟩
  | cancelOutbound => exact ⟨_, rfl, runNumber_same hs cancelOutbound_work⟩
  | deviceReset => exact execDeviceReset_ordered hs

theorem execUnknownCommand_ordered {code : BitVec 8} {s : State} (hp : PowerInv s) (hs : s.work.Ordered) :
    NextOrdered (execUnknownCommand code s) := by
  unfold execUnknownCommand
  split
  · exact ⟨_, rfl, runCommand_ordered hs fun _ => hs⟩
  · exact writeCommand_ordered _ hp hs

/-- Every row leaves every slot where its state says. -/
theorem exec_ordered (i : Instr) {s : State} (hp : PowerInv s) (hs : s.work.Ordered) : NextOrdered (exec i s) := by
  cases i with
  | allocate => exact writeCommand_ordered .allocate hp hs
  | discard => exact writeCommand_ordered .discard hp hs
  | post => exact writeCommand_ordered .post hp hs
  | abort => exact writeCommand_ordered .abort hp hs
  | retire => exact writeCommand_ordered .retire hp hs
  | flushSegment => exact writeCommand_ordered .flushSegment hp hs
  | offline => exact writeCommand_ordered .offline hp hs
  | online => exact writeCommand_ordered .online hp hs
  | segmentReset => exact writeCommand_ordered .segmentReset hp hs
  | readmit => exact writeCommand_ordered .readmit hp hs
  | releaseInbound => exact writeCommand_ordered .releaseInbound hp hs
  | commitOutbound => exact writeCommand_ordered .commitOutbound hp hs
  | cancelOutbound => exact writeCommand_ordered .cancelOutbound hp hs
  | deviceReset => exact execDeviceReset_ordered hs
  | deviceResetEnd => exact execDeviceResetEnd_ordered hs
  | unknownCommand code => exact execUnknownCommand_ordered hp hs
  | tdataRead => exact (execTdataRead_same s).ordered hs
  | targetIdentityWrite v => exact (execTargetIdentityWrite_same v s).ordered hs
  | targetPolicyWrite v => exact (execTargetPolicyWrite_same v s).ordered hs
  | slotFieldWrite v => exact (execSlotFieldWrite_same v s).ordered hs
  | segmentConfigWrite v => exact (execSegmentConfigWrite_same v s).ordered hs
  | responderEntryWrite v => exact (execResponderEntryWrite_same v s).ordered hs
  | stagingBytesWrite v => exact (execStagingBytesWrite_same v s).ordered hs
  | readOnlyTableWrite v => exact (execReadOnlyTableWrite_same v s).ordered hs
  | evtWrite v => exact (onWindow_same (f := fun s => s.clearFlags v) (clearFlags_work s v)).ordered hs
  | evtenWrite v => exact (onWindow_same (f := writeEvten v) rfl).ordered hs
  | ctlWrite v => exact (onWindow_same (f := writeCtl v) rfl).ordered hs
  | cqcfgWrite v => exact (onWindow_same (f := writeCqcfg v) (configureQueue_work s _ _)).ordered hs
  | tbloRead => exact (execTbloRead_same s).ordered hs
  | undefinedWordAccess w a => exact (execUndefinedWordAccess_same w a s).ordered hs
  | registerWrite r v => exact (onWindow_same (writePlain_work r v s)).ordered hs
  | rstAssert => exact ⟨_, rfl, rstValues_ordered true s⟩
  | rstEnd => exact execRstEnd_ordered hs
  | spgAssert g => exact (execSpgAssert_same g s).ordered hs
  | spgDeassert g => exact (execSpgDeassert_mayFinish g s).ordered hs
  | settleTimerExpiry g => exact (execSettleTimerExpiry_same g s).ordered hs
  | glitchTimerExpiry g => exact (execGlitchTimerExpiry_mayFinish g s).ordered hs
  | headEvaluation g held => exact execHeadEvaluation_ordered hs
  | engineStart g => exact (onWire_same (work_if fun _ => sendStart_work g s)).ordered hs
  | busyTimerExpiry g => exact (onWire_mayFinish (mayFinish_if fun _ => evaluateFailure_mayFinish g _ s)).ordered hs
  | stuckDetected g => exact (onWire_same (work_if fun _ => enterRecovery_work g s)).ordered hs
  | engineAddressByte g ack => exact (execEngineAddressByte_mayFinish g ack s).ordered hs
  | engineWriteByte g ack => exact (execEngineWriteByte_mayFinish g ack s).ordered hs
  | engineReadByte g b => exact (execEngineReadByte_mayFinish g b s).ordered hs
  | closingStop g => exact (execClosingStop_mayFinish g s).ordered hs
  | stopFailed g => exact (execStopFailed_same (hp.engines g)).ordered hs
  | markCloseStop g => exact (execMarkCloseStop_same (hp.engines g)).ordered hs
  | offlineCloseStop g => exact (execOfflineCloseStop_same (hp.engines g)).ordered hs
  | arbitrationLost g => exact (execArbitrationLost_mayFinish (hp.engines g)).ordered hs
  | stretchTimerExpiry g => exact (execStretchTimerExpiry_same g s).ordered hs
  | clockReleased g => exact (execClockReleased_same g s).ordered hs
  | releaseTimerExpiry g => exact (execReleaseTimerExpiry_mayFinish g s).ordered hs
  | recoveryPulse g dataHigh => exact (execRecoveryPulse_mayFinish g dataHigh s).ordered hs
  | recoveryStop g rose => exact (execRecoveryStop_mayFinish g rose s).ordered hs
  | backoffTimerExpiry g held => exact (onWire_mayFinish (mayFinish_if fun _ => beginAttempt_mayFinish g held s)).ordered hs
  | pollTimerExpiry g held => exact (onWire_mayFinish (mayFinish_if fun _ => beginAttempt_mayFinish g held s)).ordered hs
  | coalescingTimerExpiry => exact (onWire_same (work_if fun _ => signalQueue_work s)).ordered hs
  | remoteStart g => exact (onWire_same (seeStart_work g s)).ordered hs
  | remoteAddressByte g b => exact (onWire_same (work_if fun _ => evaluateAddress_work g b s)).ordered hs
  | remoteWriteByte g b => exact (onWire_same (work_if fun _ => receiveByte_work g _ b s)).ordered hs
  | remoteReadByte g ack => exact (onWire_same (work_if fun _ => sendByte_work g ack s)).ordered hs
  | remoteStop g => exact (onWire_same (seeStop_work g s)).ordered hs
  | remoteRepeatedStart g => exact (onWire_same (seeStart_work g s)).ordered hs
  | holdTimerExpiry g => exact (onWire_same (work_if fun _ => serveFill_work g s)).ordered hs
  | lineChangeOutsideTransfer g line high => exact (execLineChangeOutsideTransfer_same g line high s).ordered hs
  | timeBaseCount => exact (execTimeBaseCount_same s).ordered hs
  | tdataWriteOutOfRange v => exact (execTdataWriteOutOfRange_same v s).ordered hs

/-- Settles O6: a row leaves every slot where it was but for the moves of Work, and each of those leaves the slot that it moves where its new
state says. -/
theorem everyStepKeepsTheWork : Obligations.EveryStepKeepsTheWork := by
  intro s t hp hw h
  rw [workInv_iff] at hw ⊢
  unfold step at h
  split at h
  · cases h; exact hw
  · rename_i i rest _
    obtain ⟨u, hu, hordered⟩ := exec_ordered i (s := { s with pending := rest }) ⟨hp.engines, hp.offline, hp.segments⟩ hw
    cases hu.symm.trans h
    exact hordered

end Sys2Proof.Machine
end

section
/-! SUPPORT. The statements on the descriptor slots: ALLOCATE and DISCARD, the checks of POST and its two ways to be accepted, and the writes of the
slot fields (chapter 2). -/

namespace Sys2Proof.Machine

open Sys2Proof.Safety Sys2Proof.Claims

/-! ### ALLOCATE and DISCARD -/

/-- A state whose slots are those of an update of slot n. -/
theorem onlySlot_of_updSlot {s t u : State} {n : SlotId} (f : Slot → Slot) (hu : u.slots = s.slots)
    (ht : t.slots = (u.updSlot n f).slots) : OnlySlot s t n (f (s.slot n)) := by
  have hs : ∀ m, u.slot m = s.slot m := fun m => congrArg (fun v => v[m]) hu
  have hslot : ∀ m, t.slot m = if m = n then f (s.slot n) else s.slot m := fun m => by
    rw [← hs, ← hs, ← updSlot_slot]; exact congrArg (fun v => v[m]) ht
  exact ⟨by rw [hslot, if_pos rfl], fun m hm => by rw [hslot, if_neg hm]⟩

theorem onlySlot_symm {s t : State} {n : SlotId} {x : Slot} (h : OnlySlot s t n x) : OnlySlot t s n (s.slot n) :=
  ⟨rfl, fun m hm => (h.2 m hm).symm⟩

/-- A FREE slot that is taken is one FREE slot less. -/
theorem freeCount_succ {s t : State} {n : SlotId} {x : Slot} (h : OnlySlot s t n x) (hs : (s.slot n).state = .free)
    (hx : x.state ≠ .free) : t.freeCount + 1 = s.freeCount := by
  refine (countP_finRange_succ (n := n) ?_ ?_ fun m hm => ?_).symm
  · simpa using hs
  · simpa [h.1] using hx
  · rw [h.2 m hm]

/-- The slots are searched in the order of their numbers. -/
theorem lowestFree_eq_some {s : State} {n : SlotId} (hn : (s.slot n).state = .free) (hlow : ∀ m, m < n → (s.slot m).state ≠ .free) :
    s.lowestFree = some n := by
  refine List.find?_eq_some_iff_append.mpr ⟨by simpa using hn, ?_⟩
  obtain ⟨before, after, hsplit⟩ := List.append_of_mem (List.mem_finRange n)
  refine ⟨before, after, hsplit, fun m hm => ?_⟩
  have hsorted := List.pairwise_lt_finRange 32
  rw [hsplit, List.pairwise_append] at hsorted
  simpa using hlow m (hsorted.2.2 m hm n List.mem_cons_self)

theorem lowestFree_eq_none {s : State} (h : ∀ n, (s.slot n).state ≠ .free) : s.lowestFree = none :=
  List.find?_eq_none.mpr fun n _ => by simpa using h n

/-- ALLOCATE with a FREE slot (R33). -/
theorem allocate_free {s : State} {n : SlotId} (h : s.lowestFree = some n) :
    allocate s = accept (s.updSlot n (fun _ => freshSlot)) n.val := by
  rw [allocate, h]; rfl

theorem allocate_full {s : State} (h : s.lowestFree = none) : allocate s = refuse s .noSlot 0 := by rw [allocate, h]

/-- DISCARD of a STAGED slot (R34). -/
theorem discard_staged {s : State} {n : SlotId} (h : (s.slot n).state = .staged) :
    discard n s = accept (s.updSlot n (fun x => { x with state := .free })) n.val := if_pos h

theorem discard_other {s : State} {n : SlotId} (h : (s.slot n).state ≠ .staged) : discard n s = refuse s .notStaged n.val := if_neg h

/-- Settles O13: ALLOCATE by whether a slot is FREE, DISCARD by whether its slot is STAGED. -/
theorem slotsAreTakenAndReturned : Obligations.SlotsAreTakenAndReturned := by
  refine ⟨⟨fun s n ho hn hlow => ?_, fun s ho hfull => ?_⟩, fun s n ho hn => ⟨fun hs => ?_, fun hs => ?_⟩⟩
  · have hrun := runCommand_accept ho (allocate_free (s := storeCode Command.allocate.code s) (lowestFree_eq_some hn hlow))
    have honly : OnlySlot s (runCommand Command.allocate.code allocate s) n freshSlot := by
      rw [hrun]; exact onlySlot_of_updSlot (u := storeCode Command.allocate.code s) (fun _ => freshSlot) rfl rfl
    refine ⟨_, rfl, ?_, honly, freeCount_succ honly hn (by decide), ?_⟩
    · rw [hrun]; rfl
    · rw [hrun]; rfl
  · exact ⟨_, rfl, runCommand_refused ho (allocate_full (lowestFree_eq_none hfull)) (by decide)⟩
  · have hrun := (runCommand_number hn).trans
      (runCommand_accept ho (discard_staged (s := storeCode Command.discard.code s) hs))
    have honly : OnlySlot s (runCommand Command.discard.code (withNumber 32 discard) s) n { s.slot n with state := .free } := by
      rw [hrun]; exact onlySlot_of_updSlot (u := storeCode Command.discard.code s) (fun x => { x with state := .free }) rfl rfl
    refine ⟨_, rfl, ?_, honly, (freeCount_succ (onlySlot_symm honly) (congrArg Slot.state honly.1) (by simp [hs])).symm, ?_⟩
    · rw [hrun]; rfl
    · rw [hrun]; rfl
  · exact ⟨_, rfl, by rw [runCommand_number hn]; exact runCommand_refused ho (discard_other hs) (by decide)⟩

/-! ### The checks of POST -/

theorem ofCode_eq_some (x : Slot) (k : Kind) : Kind.ofCode x.kind = some k ↔ HasKind x k := by
  unfold Kind.ofCode
  cases k <;> split <;> simp_all [HasKind]

theorem ofCode_eq_none (x : Slot) : Kind.ofCode x.kind = none ↔ ∀ k, ¬ HasKind x k := by
  simp only [← ofCode_eq_some, Option.eq_none_iff_forall_ne_some, ne_eq]

theorem lengthsFit_iff (k : Kind) (writeCount readCount : Nat) :
    lengthsFit k writeCount readCount = true ↔ LengthRule k writeCount readCount := by
  cases k <;> exact decide_eq_true_iff

theorem segOf_of_toNat {field : BitVec 3} {g : Seg} (h : field.toNat = g.val) : segOf field = some g := by
  unfold segOf
  rw [dif_pos (h ▸ g.isLt)]
  exact congrArg some (Fin.ext h)

/-- Every valid entry is on a segment (R4). -/
theorem segOf_of_valid {s : State} (hi : IdentityInv s) {k : TargetId} (hv : (s.target k).valid = true) :
    ∃ g, segOf (s.target k).segment = some g := by
  have hle : (s.target k).segment.toNat ≤ 5 := ((usable_iff _).mp (hi.usable k hv)).2.2
  exact ⟨⟨_, Nat.lt_succ_of_le hle⟩, segOf_of_toNat rfl⟩

/-- The target check of POST: the target field names no valid entry on a segment (R35). -/
def State.targetFault (s : State) (n : SlotId) : Bool :=
  (s.targetIndex n).isNone || !(s.entryOf n).valid || (segOf (s.entryOf n).segment).isNone

theorem targetFault_of_names {s : State} {n : SlotId} {k : TargetId} {g : Seg} (h : NamesEntry s n k)
    (hg : segOf (s.target k).segment = some g) : s.targetFault n = false := by
  have hindex := targetIndex_eq_some.mpr h.1
  rw [State.targetFault, entryOf_eq hindex, hindex, h.2, hg]; rfl

theorem targetFault_of_names_none {s : State} {n : SlotId} (h : ∀ k, ¬ NamesEntry s n k) : s.targetFault n = true := by
  cases hindex : s.targetIndex n with
  | none => rw [State.targetFault, hindex]; rfl
  | some k =>
    have hv : (s.target k).valid = false := Bool.eq_false_iff.mpr fun hv => h k ⟨targetIndex_eq_some.mp hindex, hv⟩
    rw [State.targetFault, entryOf_eq hindex, hv]; simp

theorem pollFault_iff (x : Slot) (k : Kind) : (k = .poll ∧ (x.pollInterval = 0 ∨ x.pollLimit = 0)) ↔ ¬ PollRule x k := by
  simp only [PollRule]; tauto

/-- The checks on a slot of a kind, in their order (R35). -/
theorem postFault_of_kind {s : State} {n : SlotId} {k : Kind} (hk : HasKind (s.slot n) k) :
    s.postFault n =
      if s.targetFault n then some (.badTarget, .badTarget)
      else if !lengthsFit k (s.slot n).writeCount.toNat (s.slot n).readCount.toNat then some (.badLength, .badLength)
      else if k = .poll ∧ ((s.slot n).pollInterval = 0 ∨ (s.slot n).pollLimit = 0) then some (.badPoll, .badPoll)
      else none := by
  unfold State.postFault
  dsimp only
  rw [(ofCode_eq_some _ _).mpr hk]; rfl

theorem postFault_of_no_kind {s : State} {n : SlotId} (h : ∀ k, ¬ HasKind (s.slot n) k) : s.postFault n = some (.badKind, .badKind) := by
  simp only [State.postFault, (ofCode_eq_none _).mpr h]

/-- A slot that passes every check (R35). -/
theorem postFault_of_postable {s : State} {n : SlotId} {kind : Kind} {k : TargetId} {g : Seg} (h : Postable s n kind k g) :
    s.postFault n = none := by
  obtain ⟨-, hkind, hnames, hseg, hlengths, hpoll⟩ := h
  rw [postFault_of_kind hkind, targetFault_of_names hnames (segOf_of_toNat hseg), (lengthsFit_iff _ _ _).mpr hlengths,
    if_neg (by simp), if_neg (by simp), if_neg (by rw [pollFault_iff]; exact not_not.mpr hpoll)]

theorem post_other {s : State} {n : SlotId} (h : (s.slot n).state ≠ .staged) : post n s = refuse s .notStaged n.val := if_neg h

/-- A fault is shown in the outcome of the slot, which stays STAGED (R35). -/
theorem post_fault {s : State} {n : SlotId} {r : CmdResult} {o : SlotOutcome} (hs : (s.slot n).state = .staged)
    (hf : s.postFault n = some (r, o)) : post n s = refuse (s.updSlot n (fun x => { x with outcome := o })) r n.val := by
  rw [post, if_pos hs, hf]

theorem post_accepted {s : State} {n : SlotId} {kind : Kind} {k : TargetId} {g : Seg} (h : Postable s n kind k g) :
    post n s = accept (acceptPost n g s) n.val := by
  have hfault := postFault_of_postable h
  obtain ⟨hstaged, -, hnames, hseg, -, -⟩ := h
  rw [post, if_pos hstaged, hfault, entryOf_eq (targetIndex_eq_some.mpr hnames.1), segOf_of_toNat hseg]

/-- What a POST that meets a fault leaves (R35). -/
theorem runPost_fault {s : State} {n : SlotId} {r : CmdResult} {o : SlotOutcome} (ho : s.windowOpen = true) (hn : s.argNumber = n.val)
    (hs : (s.slot n).state = .staged) (hf : s.postFault n = some (r, o)) (hr : r ≠ .done) :
    ∃ t : State, exec .post s = .next t ∧ t.win = answered s 0x03#8 r n.val ∧ OnlySlot s t n { s.slot n with outcome := o } ∧
      Raises s t [.cmdError] ∧ t = { s with win := t.win, ev := t.ev, slots := t.slots } := by
  have hrun := (runCommand_number hn).trans (runCommand_refuse ho (post_fault (s := storeCode Command.post.code s) hs hf) hr)
  have honly := onlySlot_of_updSlot (u := storeCode Command.post.code s) (fun x => { x with outcome := o }) (s := s) (n := n) rfl rfl
  exact ⟨_, congrArg Host.Outcome.next hrun, rfl, honly, raises_congr (raises_raise s .cmdError) rfl rfl, rfl⟩

/-- Settles O15: each check finds its fault once the checks before it have passed. -/
theorem postRefusesTheFirstFault : Obligations.PostRefusesTheFirstFault := by
  intro s n hi ho hn
  refine ⟨fun hs => ?_, fun r o hs hfault => ?_⟩
  · exact ⟨_, rfl, by rw [runCommand_number hn]; exact runCommand_refused ho (post_other hs) (by decide)⟩
  · obtain ⟨hkind, rfl, rfl⟩ | ⟨kind, hkind, hfault⟩ := hfault
    · exact runPost_fault ho hn hs (postFault_of_no_kind hkind) (by decide)
    have hchecks := postFault_of_kind hkind
    obtain ⟨htarget, rfl, rfl⟩ | ⟨⟨k, hnames⟩, hfault⟩ := hfault
    · exact runPost_fault ho hn hs (hchecks.trans (if_pos (targetFault_of_names_none htarget))) (by decide)
    obtain ⟨g, hg⟩ := segOf_of_valid hi hnames.2
    rw [targetFault_of_names hnames hg, if_neg (by simp)] at hchecks
    obtain ⟨hlength, rfl, rfl⟩ | ⟨hlength, hpoll, rfl, rfl⟩ := hfault
    · rw [Bool.eq_false_iff.mpr (mt (lengthsFit_iff _ _ _).mp hlength)] at hchecks
      exact runPost_fault ho hn hs hchecks (by decide)
    · rw [(lengthsFit_iff _ _ _).mpr hlength, if_neg (by simp)] at hchecks
      exact runPost_fault ho hn hs (hchecks.trans (if_pos ((pollFault_iff _ _).mpr hpoll))) (by decide)

/-! ### An accepted POST -/

theorem downFlushing_iff (x : Segment) : x.downFlushing = true ↔ downAndFlushing x := by
  cases h : x.state <;> simp [Segment.downFlushing, downAndFlushing, h]

/-- The condition under which a POST completes at once (R38). -/
theorem acceptPost_condition (n : SlotId) (g : Seg) (s : State) :
    (((latchPost n g s).seg g).downFlushing && ((latchPost n g s).seg g).list.isEmpty &&
      ((latchPost n g s).engine g).active.isNone) = true ↔
      downAndFlushing (s.seg g) ∧ (s.seg g).list = [] ∧ (s.engine g).active = none := by
  simp only [State.engine, latchPost_seg, Bool.and_eq_true, downFlushing_iff, List.isEmpty_iff, Option.isNone_iff_eq_none, and_assoc]

theorem acceptPost_completed {n : SlotId} {g : Seg} {s : State}
    (h : downAndFlushing (s.seg g) ∧ (s.seg g).list = [] ∧ (s.engine g).active = none) :
    acceptPost n g s = completeSlot n .segmentDown (latchPost n g s) := if_pos ((acceptPost_condition n g s).mpr h)

theorem acceptPost_listed {n : SlotId} {g : Seg} {s : State}
    (h : ¬ (downAndFlushing (s.seg g) ∧ (s.seg g).list = [] ∧ (s.engine g).active = none)) :
    acceptPost n g s = queuePost n g s := if_neg (mt (acceptPost_condition n g s).mp h)

/-- Two states that differ in their slots, entries and segments alone. -/
theorem list_frame {s t : State} (win : t.win = s.win) (ev : t.ev = s.ev) (cq : t.cq = s.cq) (entries : t.entries = s.entries)
    (boxes : t.boxes = s.boxes) (rst : t.rstHeld = s.rstHeld) (pending : t.pending = s.pending) :
    t = { s with slots := t.slots, targets := t.targets, segs := t.segs } :=
  state_ext win ev cq rfl rfl rfl entries boxes rst pending

/-- Two states that differ in their slots, entries, queue and flags alone. -/
theorem work_frame {s t : State} (win : t.win = s.win) (segs : t.segs = s.segs) (entries : t.entries = s.entries)
    (boxes : t.boxes = s.boxes) (rst : t.rstHeld = s.rstHeld) (pending : t.pending = s.pending) :
    t = { s with slots := t.slots, targets := t.targets, cq := t.cq, ev := t.ev } :=
  state_ext win rfl rfl rfl rfl segs entries boxes rst pending

/-- What a POST that joins the list of its segment leaves (R37). -/
theorem queuePost_spec {s : State} {n : SlotId} {k : TargetId} (g : Seg) (hk : s.targetIndex n = some k) :
    OnlySlot s (queuePost n g s) n { postedSlot (s.slot n) g with state := .pending } ∧
      OnlyEntry s (queuePost n g s) k { s.target k with refCount := (s.target k).refCount + 1 } ∧
      OnlySegment s (queuePost n g s) g { s.seg g with list := (s.seg g).list ++ [n] } ∧
      queuePost n g s =
        { s with slots := (queuePost n g s).slots, targets := (queuePost n g s).targets, segs := (queuePost n g s).segs } := by
  have htarget : ∀ j, (queuePost n g s).target j = (latchPost n g s).target j := fun j => by
    rw [queuePost, updSeg_target, updSlot_target]
  have hseg := onlySegment_updSeg ((latchPost n g s).updSlot n (fun x => { x with state := .pending })) g
    (fun x => { x with list := x.list ++ [n] })
  refine ⟨⟨?_, fun m hm => ?_⟩, ⟨?_, fun j hj => ?_⟩, ⟨?_, fun j hj => ?_⟩, ?_⟩
  · rw [queuePost_slot, if_pos rfl]
  · rw [queuePost_slot, if_neg hm]
  · rw [htarget, latchPost_target, if_pos hk]
  · rw [htarget, latchPost_target, if_neg (by rw [hk]; exact fun h => hj (Option.some.inj h).symm)]
  · rw [queuePost, hseg.1, updSlot_seg, latchPost_seg]
  · rw [queuePost, hseg.2 j hj, updSlot_seg, latchPost_seg]
  · refine list_frame ?_ ?_ ?_ ?_ ?_ ?_ ?_ <;> simp [queuePost, latchPost]

/-- What a POST that is completed at once leaves: the reference count has risen and is back (R38, R39). -/
theorem completePost_spec {s : State} {n : SlotId} {k : TargetId} (g : Seg) (st : Status) (hk : s.targetIndex n = some k) :
    Completes s (completeSlot n st (latchPost n g s)) n (postedSlot (s.slot n) g)
        { s.target k with refCount := (s.target k).refCount + 1 } st ∧
      RaisesBesideReady s (completeSlot n st (latchPost n g s)) [] ∧
      completeSlot n st (latchPost n g s) =
        { s with
          slots := (completeSlot n st (latchPost n g s)).slots, targets := (completeSlot n st (latchPost n g s)).targets
          cq := (completeSlot n st (latchPost n g s)).cq, ev := (completeSlot n st (latchPost n g s)).ev } := by
  have hev : (latchPost n g s).ev = s.ev := by simp [latchPost]
  have hcq : (latchPost n g s).cq = s.cq := by simp [latchPost]
  have hflag : ∀ e, (latchPost n g s).flag e = s.flag e := fun e => by rw [State.flag, State.flag, hev]
  have hindex : (latchPost n g s).targetIndex n = s.targetIndex n := latchPost_targetIndex n n g s
  obtain ⟨hc, hr, -⟩ := completeSlot_completes (latchPost n g s) n st
  rw [entryOf_eq (hindex.trans hk), latchPost_target, if_pos hk, latchPost_slot, if_pos rfl] at hc
  refine ⟨completes_transfer hc (fun m hm => ?_) ?_ hindex (fun j hj => ?_) hcq (hflag _) (by rw [hev]),
    ⟨by rw [hr.1, hev], fun e he => by rw [hr.2 e he, hflag]⟩, ?_⟩
  · rw [latchPost_slot, if_neg hm]
  · rw [latchPost_slot, if_pos rfl]; rfl
  · rw [latchPost_target, if_neg hj]
  · refine work_frame ?_ ?_ ?_ ?_ ?_ ?_ <;> simp [latchPost]

/-- The state that a POST leaves when it is accepted (R37, R182). -/
theorem execPost_accepted {s : State} {n : SlotId} {kind : Kind} {k : TargetId} {g : Seg} (ho : s.windowOpen = true)
    (hn : s.argNumber = n.val) (h : Postable s n kind k g) :
    exec .post s = .next ((acceptPost n g (storeCode Command.post.code s)).updWin (CmdResult.done.put n.val)) :=
  congrArg Host.Outcome.next
    ((runCommand_number hn).trans (runCommand_accept ho (post_accepted (s := storeCode Command.post.code s) h)))

theorem index_of_postable {s : State} {n : SlotId} {kind : Kind} {k : TargetId} {g : Seg} (h : Postable s n kind k g) :
    s.targetIndex n = some k := by
  obtain ⟨-, -, hnames, -⟩ := h
  exact targetIndex_eq_some.mpr hnames.1

/-- A POST that joins the list of its segment (R37). -/
theorem execPost_listed {s : State} {n : SlotId} {kind : Kind} {k : TargetId} {g : Seg} (ho : s.windowOpen = true)
    (hn : s.argNumber = n.val) (h : Postable s n kind k g)
    (hlist : ¬ (downAndFlushing (s.seg g) ∧ (s.seg g).list = [] ∧ (s.engine g).active = none)) :
    ∃ t : State, exec .post s = .next t ∧ t.win = answered s 0x03#8 .done n.val ∧
      OnlySlot s t n { postedSlot (s.slot n) g with state := .pending } ∧
      OnlyEntry s t k { s.target k with refCount := (s.target k).refCount + 1 } ∧
      OnlySegment s t g { s.seg g with list := (s.seg g).list ++ [n] } ∧
      t = { s with win := t.win, slots := t.slots, targets := t.targets, segs := t.segs } := by
  have hexec := execPost_accepted ho hn h
  rw [acceptPost_listed (s := storeCode Command.post.code s) hlist] at hexec
  obtain ⟨hslot, hentry, hsegment, hframe⟩ := queuePost_spec (s := storeCode Command.post.code s) g (index_of_postable h)
  generalize queuePost n g (storeCode Command.post.code s) = u at hexec hslot hentry hsegment hframe
  have hfield := fun {α : Type} (p : State → α) => congrArg p hframe
  exact ⟨_, hexec, congrArg (CmdResult.done.put n.val) (hfield State.win), hslot, hentry, hsegment,
    state_ext rfl (hfield State.ev) (hfield State.cq) rfl rfl rfl (hfield State.entries) (hfield State.boxes) (hfield State.rstHeld)
      (hfield State.pending)⟩

/-- A POST that completes at once (R38). -/
theorem execPost_completed {s : State} {n : SlotId} {kind : Kind} {k : TargetId} {g : Seg} (ho : s.windowOpen = true)
    (hn : s.argNumber = n.val) (h : Postable s n kind k g)
    (hdown : downAndFlushing (s.seg g) ∧ (s.seg g).list = [] ∧ (s.engine g).active = none) :
    ∃ t : State, exec .post s = .next t ∧ t.win = answered s 0x03#8 .done n.val ∧
      Completes s t n (postedSlot (s.slot n) g) { s.target k with refCount := (s.target k).refCount + 1 } .segmentDown ∧
      RaisesBesideReady s t [] ∧
      t = { s with win := t.win, slots := t.slots, targets := t.targets, cq := t.cq, ev := t.ev } := by
  have hexec := execPost_accepted ho hn h
  rw [acceptPost_completed (s := storeCode Command.post.code s) hdown] at hexec
  obtain ⟨hcomplete, hraise, hframe⟩ := completePost_spec (s := storeCode Command.post.code s) g .segmentDown (index_of_postable h)
  generalize completeSlot n .segmentDown (latchPost n g (storeCode Command.post.code s)) = u at hexec hcomplete hraise hframe
  have hfield := fun {α : Type} (p : State → α) => congrArg p hframe
  have htransfer : Completes s u n (postedSlot (s.slot n) g) { s.target k with refCount := (s.target k).refCount + 1 } .segmentDown :=
    completes_transfer hcomplete (fun _ _ => rfl) rfl rfl (fun _ _ => rfl) rfl rfl rfl
  exact ⟨_, hexec, congrArg (CmdResult.done.put n.val) (hfield State.win), completes_congr htransfer rfl rfl rfl rfl, hraise,
    state_ext rfl rfl rfl rfl rfl (hfield State.segs) (hfield State.entries) (hfield State.boxes) (hfield State.rstHeld)
      (hfield State.pending)⟩

/-- Settles O14: by the condition of R38 an accepted POST joins the list of its segment, or completes at once. -/
theorem acceptedPosts : Obligations.AcceptedPosts :=
  ⟨fun _ _ _ _ _ ho hn hpost hlist => execPost_listed ho hn hpost hlist,
    fun _ _ _ _ _ ho hn hpost hdown hempty hidle => execPost_completed ho hn hpost ⟨hdown, hempty, hidle⟩⟩

/-! ### The writes of the slot fields -/

theorem tableWord_slotField (n : SlotId) {w : Nat} (h1 : 1 ≤ w) (h20 : w ≤ 20) : tableWord 1 n.val w = some (.slotField n w) := by
  simp [tableWord, instanceOf_val, show w ≠ 0 by omega, show w < 21 by omega]

theorem execSlotFieldWrite_selected {s : State} {n : SlotId} {w : Nat} (v : Word) (ho : s.windowOpen = true)
    (hsel : Selects s 1 n.val w) (h1 : 1 ≤ w) (h20 : w ≤ 20) : exec (.slotFieldWrite v) s = .next (writeSlotField n w v s) := by
  have hs := (selected_of_selects hsel).trans (tableWord_slotField n h1 h20)
  refine congrArg Host.Outcome.next ((onWindow_open _ ho).trans ?_)
  simp only [hs]

theorem writeSlotField_staged {s : State} {n : SlotId} (w : Nat) (v : Word) (h : (s.slot n).state = .staged) :
    writeSlotField n w v s = (s.updSlot n (fun x => x.store w v)).updWin (fun _ => accessed s .ok) := if_pos h

theorem writeSlotField_other {s : State} {n : SlotId} (w : Nat) (v : Word) (h : (s.slot n).state ≠ .staged) :
    writeSlotField n w v s = refused .notStaged s := if_neg h

/-- The words from 5 on hold the write list, two bytes each (section 10.4). -/
theorem store_writeList (x : Slot) {w : Nat} (v : Word) (h : 5 ≤ w) :
    x.store w v = { x with writeList := setBufferWord x.writeList (w - 5) v } := by
  obtain ⟨k, rfl⟩ := Nat.exists_eq_add_of_le' h
  rfl

/-- Settles O32: the word of a STAGED slot is handed to the store of its fields, which checks nothing. -/
theorem slotFieldWritesNeedAStagedSlot : Obligations.SlotFieldWritesNeedAStagedSlot := by
  intro s n w v ho hsel h1 h20
  have hexec := execSlotFieldWrite_selected v ho hsel h1 h20
  refine ⟨fun hs => ?_, fun hs => ?_⟩
  · rw [writeSlotField_other w v hs] at hexec
    exact ⟨_, hexec, refused_spec .notStaged s⟩
  · rw [writeSlotField_staged w v hs] at hexec
    refine ⟨_, hexec, rfl, rfl, fun m hm => ?_, ?_⟩
    · rw [updWin_slot, updSlot_slot, if_neg hm]
    · rw [updWin_slot, updSlot_slot, if_pos rfl]
      refine ⟨?_, ?_, ?_, ?_, fun h5 => ?_⟩
      iterate 4 · rintro rfl; rfl
      rw [store_writeList _ v h5]
      exact ⟨rfl, fun i hi => byteAt_setBufferWord _ _ i v hi⟩

end Sys2Proof.Machine
end

section
/-! SUPPORT. The cancel marks: what ABORT and FLUSH_SEGMENT set, and what a mark on the active slot of an engine that waits without the bus ends
(section 3.4, R78, R80). -/

namespace Sys2Proof.Machine

open Sys2Proof.Safety Sys2Proof.Claims

/-! ### A mark that is taken -/

/-- An engine that has no active slot, or that holds the bus, takes no mark at its setting (R78). -/
theorem markTaken_not_waiting {g : Seg} {s : State} (h : (s.engine g).active = none ∨ HoldsBus (s.engine g)) : markTaken g s = s := by
  unfold markTaken
  obtain h | h | h | h := h
  · rw [h]
  all_goals
    rw [h]
    cases (s.engine g).active with
    | none => rfl
    | some n => dsimp only; cases (s.slot n).mark.status <;> rfl

/-- An engine that waits without the bus ends its active slot when it is marked (R78, R80). -/
theorem markTaken_waiting {g : Seg} {n : SlotId} {st : Status} {s : State} (h : Waiting s g n) (hm : HasMark (s.slot n) st) :
    markTaken g s = finishSlot g n st s := by
  obtain ⟨hactive, hstate⟩ := h
  have hstatus := (status_eq_some _ _).mpr hm
  unfold markTaken
  obtain hstate | hstate | hstate := hstate <;> simp only [hactive, hstatus, hstate]

theorem finishSlot_win (g : Seg) (n : SlotId) (st : Status) (s : State) : (finishSlot g n st s).win = s.win := by
  rw [finishSlot, idleEngine_eq, updEngine_win, completeSlot_win]

theorem finishSlot_slot (g : Seg) (n : SlotId) (st : Status) (s : State) (m : SlotId) :
    (finishSlot g n st s).slot m =
      if m = n then { s.slot n with state := .done, outcome := .completed st, completionTime := s.ev.timeBase } else s.slot m := by
  rw [finishSlot, idleEngine_eq, updEngine_slot, completeSlot_slot]

theorem finishSlot_target (g : Seg) (n : SlotId) (st : Status) (s : State) (k : TargetId) :
    (finishSlot g n st s).target k =
      if s.targetIndex n = some k then { s.target k with refCount := (s.target k).refCount - 1, lastFinal := some st }
      else s.target k := by
  rw [finishSlot, idleEngine_eq, updEngine_target, completeSlot_target]

/-- What the end of slot n by its mark leaves, over a state u that differs from s in its window and its marks alone: the record at the tail of the
queue and the engine IDLE (R39, R80). -/
theorem finishSlot_marked {s u t : State} {n : SlotId} (g : Seg) (st : Status) (f : Window → Window)
    (hu : u = { s with win := u.win, slots := u.slots }) (htarget : (u.slot n).target = (s.slot n).target)
    (hnotify : (u.slot n).notifyNow = (s.slot n).notifyNow) (ht : t = (finishSlot g n st u).updWin f) :
    (∀ m : SlotId, t.slot m = if m = n then
        { u.slot n with state := .done, outcome := .completed st, completionTime := s.ev.timeBase } else u.slot m) ∧
      (∀ k : TargetId, t.target k = if s.targetIndex n = some k then
        { s.target k with refCount := (s.target k).refCount - 1, lastFinal := some st } else s.target k) ∧
      Appends s t n ∧ RaisesBesideReady s t [] ∧ OnlySegment s t g { s.seg g with engine := {} } ∧
      t = { s with win := t.win, slots := t.slots, targets := t.targets, cq := t.cq, ev := t.ev, segs := t.segs } := by
  obtain ⟨w, xs, rfl⟩ : ∃ w xs, u = { s with win := w, slots := xs } := ⟨_, _, hu⟩
  obtain ⟨hcompletes, hraises, hsegment, hframe⟩ := finishSlot_spec g n st { s with win := w, slots := xs }
  have hslot := finishSlot_slot g n st { s with win := w, slots := xs }
  have hentry := finishSlot_target g n st { s with win := w, slots := xs }
  have hindex : { s with win := w, slots := xs }.targetIndex n = s.targetIndex n := by simp only [State.targetIndex, htarget]
  rw [hindex] at hentry
  generalize finishSlot g n st { s with win := w, slots := xs } = v at hcompletes hraises hsegment hframe hslot hentry ht
  have hfield := fun {α : Type} (p : State → α) => congrArg p hframe
  subst ht
  exact ⟨hslot, hentry, appends_congr (appends_transfer hcompletes.toAppends hnotify rfl rfl) rfl rfl, hraises, hsegment,
    state_ext rfl rfl rfl rfl rfl rfl (hfield State.entries) (hfield State.boxes) (hfield State.rstHeld) (hfield State.pending)⟩

/-! ### ABORT -/

@[simp] theorem setMark_slot (k : Mark) (n m : SlotId) (s : State) :
    (setMark k n s).slot m = if m = n then { s.slot n with mark := k } else s.slot m := updSlot_slot s n _ m

theorem abort_other {n : SlotId} {s : State} (h : (s.slot n).state = .free ∨ (s.slot n).state = .staged ∨ (s.slot n).state = .done) :
    abort n s = refuse s .notAbortable n.val := by
  unfold abort
  obtain h | h | h := h <;> rw [h]

theorem abort_posted {n : SlotId} {s : State} (h : posted (s.slot n)) :
    abort n s = if (s.slot n).mark = .none then
        accept (if (s.slot n).state = .active then markTaken (s.slot n).segment (setMark .aborted n s) else setMark .aborted n s) n.val
      else accept s n.val := by
  unfold abort
  obtain h | h := h <;> rw [h]

/-- A mark is set once (R29). -/
theorem abort_marked {n : SlotId} {s : State} (h : posted (s.slot n)) (hm : (s.slot n).mark ≠ .none) : abort n s = accept s n.val := by
  rw [abort_posted h, if_neg hm]

/-- The mark of a PENDING slot, and of the active slot of an engine that holds the bus, waits for a decision point (R53, R79). -/
theorem abort_sets {n : SlotId} {s : State} (hm : (s.slot n).mark = .none)
    (h : (s.slot n).state = .pending ∨ (s.slot n).state = .active ∧ HoldsBus (s.engine (s.slot n).segment)) :
    abort n s = accept (setMark .aborted n s) n.val := by
  obtain h | ⟨h, hbus⟩ := h
  · rw [abort_posted (.inl h), if_pos hm, if_neg (by rw [h]; decide)]
  · rw [abort_posted (.inr h), if_pos hm, if_pos h, markTaken_not_waiting (s := setMark .aborted n s) (.inr hbus)]

/-- The mark of an active slot whose engine waits without the bus ends it (R78, R80). -/
theorem abort_ends {n : SlotId} {s : State} (hm : (s.slot n).mark = .none) (h : (s.slot n).state = .active)
    (hw : Waiting s (s.slot n).segment n) :
    abort n s = accept (finishSlot (s.slot n).segment n .aborted (setMark .aborted n s)) n.val := by
  rw [abort_posted (.inr h), if_pos hm, if_pos h,
    markTaken_waiting (s := setMark .aborted n s) (st := .aborted) hw (.inl ⟨by rw [setMark_slot, if_pos rfl], rfl⟩)]

/-- What an ABORT that ends its slot at once leaves. -/
theorem execAbort_ends {s : State} {n : SlotId} (ho : s.windowOpen = true) (hn : s.argNumber = n.val) (hm : (s.slot n).mark = .none)
    (h : (s.slot n).state = .active) (hw : Waiting s (s.slot n).segment n) :
    ∃ t : State, exec .abort s = .next t ∧ t.win = answered s 0x04#8 .done n.val ∧
      Completes s t n { s.slot n with mark := .aborted } (s.entryOf n) .aborted ∧ RaisesBesideReady s t [] ∧
      OnlySegment s t (s.slot n).segment { s.seg (s.slot n).segment with engine := {} } ∧
      t = { s with win := t.win, slots := t.slots, targets := t.targets, cq := t.cq, ev := t.ev, segs := t.segs } := by
  have hrun := (runCommand_number hn).trans (runCommand_accept ho (abort_ends (s := storeCode Command.abort.code s) hm h hw))
  obtain ⟨u, hu⟩ : ∃ u, u = setMark .aborted n (storeCode Command.abort.code s) := ⟨_, rfl⟩
  have hslot : ∀ m, u.slot m = if m = n then { s.slot n with mark := .aborted } else s.slot m := fun m => by
    rw [hu]; exact setMark_slot .aborted n m _
  have hslotn : u.slot n = { s.slot n with mark := .aborted } := by rw [hslot, if_pos rfl]
  obtain ⟨hslots, htargets, happends, hraises, hsegment, hframe⟩ := finishSlot_marked (s := s) (u := u) (n := n) (s.slot n).segment .aborted
    (CmdResult.done.put n.val) (by rw [hu]; rfl) (by rw [hslotn]) (by rw [hslotn]) rfl
  rw [storeCode_slot, ← hu] at hrun
  refine ⟨_, congrArg Host.Outcome.next hrun, ?_, ⟨happends, ?_, fun m hm => ?_, fun k hk => ?_, fun k hk => ?_⟩, hraises, hsegment, hframe⟩
  · exact congrArg (CmdResult.done.put n.val)
      ((finishSlot_win (s.slot n).segment n .aborted u).trans (congrArg State.win hu))
  · rw [hslots, if_pos rfl, hslotn]
  · rw [hslots, if_neg hm, hslot, if_neg hm]
  · rw [htargets, if_pos hk, entryOf_eq hk]
  · rw [htargets, if_neg hk]

/-- Settles O16: ABORT by the state of its slot, by its mark, and by whether its engine holds the bus. -/
theorem abortMarksOrEndsTheSlot : Obligations.AbortMarksOrEndsTheSlot := by
  intro s n ho hn
  refine ⟨fun h => ?_, fun h hm => ?_, fun hm h => ?_, fun hm h hw => execAbort_ends ho hn hm h hw⟩
  · exact ⟨_, rfl, by rw [runCommand_number hn]; exact runCommand_refused ho (abort_other h) (by decide)⟩
  · have hrun := (runCommand_number hn).trans (runCommand_accept ho (abort_marked (s := storeCode Command.abort.code s) h hm))
    exact ⟨_, congrArg Host.Outcome.next hrun, rfl⟩
  · have hrun := (runCommand_number hn).trans (runCommand_accept ho (abort_sets (s := storeCode Command.abort.code s) hm
      (h.imp_right fun ⟨hactive, _, hbus⟩ => ⟨hactive, hbus⟩)))
    exact ⟨_, congrArg Host.Outcome.next hrun, rfl,
      onlySlot_of_updSlot (u := storeCode Command.abort.code s) (fun x => { x with mark := .aborted }) rfl rfl, rfl⟩

/-! ### FLUSH_SEGMENT -/

/-- FLUSHED is set on every slot of segment g that is to be marked (R55). -/
def flushMarks (g : Seg) (s : State) : State := (s.unmarked g).foldl (fun t n => setMark .flushed n t) s

theorem flushSegment_eq (g : Seg) (s : State) : flushSegment g s = accept (markTaken g (flushMarks g s)) (s.unmarked g).length := rfl

/-- The marks of a list of slots change the slots of the list alone. -/
theorem foldl_setMark_slot (k : Mark) (ns : List SlotId) (s : State) (m : SlotId) :
    (ns.foldl (fun t n => setMark k n t) s).slot m = if m ∈ ns then { s.slot m with mark := k } else s.slot m := by
  induction ns generalizing s with
  | nil => rfl
  | cons n ns ih =>
    rw [List.foldl_cons, ih, setMark_slot]
    by_cases hm : m = n
    · subst hm; simp
    · simp [hm]

theorem foldl_setMark_frame (k : Mark) (ns : List SlotId) (s : State) :
    ns.foldl (fun t n => setMark k n t) s = { s with slots := (ns.foldl (fun t n => setMark k n t) s).slots } := by
  induction ns generalizing s with
  | nil => rfl
  | cons n ns ih => exact ih (setMark k n s)

theorem flushMarks_frame (g : Seg) (s : State) : flushMarks g s = { s with slots := (flushMarks g s).slots } :=
  foldl_setMark_frame .flushed (s.unmarked g) s

theorem mem_unmarked {g : Seg} {s : State} {m : SlotId} :
    m ∈ s.unmarked g ↔ (m ∈ (s.seg g).list ∨ (s.engine g).active = some m) ∧ (s.slot m).mark = .none := by
  simp only [State.unmarked, List.mem_filter, List.mem_append, Option.mem_toList, decide_eq_true_eq,
    or_comm (a := m ∈ (s.seg g).list)]

theorem flushMarks_slot (g : Seg) (s : State) (m : SlotId) :
    (flushMarks g s).slot m =
      if (m ∈ (s.seg g).list ∨ (s.engine g).active = some m) ∧ (s.slot m).mark = .none then { s.slot m with mark := .flushed }
      else s.slot m := by
  simp only [flushMarks, foldl_setMark_slot, mem_unmarked]

theorem flushMarks_engine (g h : Seg) (s : State) : (flushMarks g s).engine h = s.engine h := by
  rw [flushMarks_frame]; rfl

/-- The number that FLUSH_SEGMENT returns (R55). -/
theorem unmarked_length (g : Seg) (s : State) :
    (s.unmarked g).length =
      ((s.engine g).active.toList ++ (s.seg g).list).countP (fun m => decide ((s.slot m).mark = .none)) := List.countP_eq_length_filter.symm

/-- A flush of a segment whose engine takes no mark (R55). -/
theorem flushSegment_marks {g : Seg} {s : State} (h : (s.engine g).active = none ∨ HoldsBus (s.engine g)) :
    flushSegment g s = accept (flushMarks g s) (s.unmarked g).length := by
  rw [flushSegment_eq, markTaken_not_waiting (by rwa [flushMarks_engine])]

/-- A flush of a segment whose engine waits without the bus for a slot that is not marked (R55, R78). -/
theorem flushSegment_ends {g : Seg} {n : SlotId} {s : State} (hw : Waiting s g n) (hm : (s.slot n).mark = .none) :
    flushSegment g s = accept (finishSlot g n .flushed (flushMarks g s)) (s.unmarked g).length := by
  have hmark : HasMark ((flushMarks g s).slot n) .flushed := .inr ⟨by rw [flushMarks_slot, if_pos ⟨.inr hw.1, hm⟩], rfl⟩
  rw [flushSegment_eq, markTaken_waiting (by rwa [Waiting, flushMarks_engine]) hmark]

/-- What a FLUSH_SEGMENT that ends the active slot at once leaves. -/
theorem execFlushSegment_ends {s : State} {g : Seg} {n : SlotId} (ho : s.windowOpen = true) (hg : s.argNumber = g.val)
    (hw : Waiting s g n) (hm : (s.slot n).mark = .none) :
    ∃ t : State, exec .flushSegment s = .next t ∧
      t.win = answered s 0x06#8 .done ((n :: (s.seg g).list).countP (fun m => decide ((s.slot m).mark = .none))) ∧
      t.slot n = { s.slot n with
        mark := .flushed, state := .done, outcome := .completed .flushed, completionTime := s.ev.timeBase } ∧
      (∀ m : SlotId, m ≠ n → t.slot m =
        if m ∈ (s.seg g).list ∧ (s.slot m).mark = .none then { s.slot m with mark := .flushed } else s.slot m) ∧
      (∀ k : TargetId, t.target k =
        if s.targetIndex n = some k then { s.target k with refCount := (s.target k).refCount - 1, lastFinal := some .flushed }
        else s.target k) ∧
      Appends s t n ∧ RaisesBesideReady s t [] ∧ OnlySegment s t g { s.seg g with engine := {} } ∧
      t = { s with win := t.win, slots := t.slots, targets := t.targets, cq := t.cq, ev := t.ev, segs := t.segs } := by
  have hactive : (s.engine g).active = some n := hw.1
  have hrun := (runCommand_number hg).trans
    (runCommand_accept ho (flushSegment_ends (s := storeCode Command.flushSegment.code s) hw hm))
  obtain ⟨u, hu⟩ : ∃ u, u = flushMarks g (storeCode Command.flushSegment.code s) := ⟨_, rfl⟩
  have hmarks := hu ▸ flushMarks_frame g (storeCode Command.flushSegment.code s)
  have hslot : ∀ m, u.slot m = if (m ∈ (s.seg g).list ∨ (s.engine g).active = some m) ∧ (s.slot m).mark = .none then
      { s.slot m with mark := .flushed } else s.slot m := fun m => hu ▸ flushMarks_slot g (storeCode Command.flushSegment.code s) m
  have hslotn : u.slot n = { s.slot n with mark := .flushed } := by rw [hslot, if_pos ⟨.inr hactive, hm⟩]
  have hcount := unmarked_length g (storeCode Command.flushSegment.code s)
  rw [storeCode_engine, hactive] at hcount
  obtain ⟨hslots, htargets, hrest⟩ := finishSlot_marked (s := s) (u := u) (n := n) g .flushed
    (CmdResult.done.put ((storeCode Command.flushSegment.code s).unmarked g).length)
    (hmarks.trans (by rw [hmarks]; rfl)) (by rw [hslotn]) (by rw [hslotn]) rfl
  rw [← hu] at hrun
  refine ⟨_, congrArg Host.Outcome.next hrun, ?_, ?_, fun m hne => ?_, htargets, hrest⟩
  · rw [hcount]
    exact congrArg (CmdResult.done.put _)
      ((finishSlot_win g n .flushed u).trans (congrArg State.win hmarks))
  · rw [hslots, if_pos rfl, hslotn]
  · rw [hslots, if_neg hne, hslot]
    simp [hactive, Ne.symm hne]

/-- Settles O17: the marks are set on the unmarked slots of the segment, and an engine that waits without the bus takes the one of its slot. -/
theorem flushMarksTheSegment : Obligations.FlushMarksTheSegment := by
  intro s g _ ho hg
  refine ⟨fun h => ?_, fun n hw hm => execFlushSegment_ends ho hg hw hm⟩
  have hrun := (runCommand_number hg).trans
    (runCommand_accept ho (flushSegment_marks (s := storeCode Command.flushSegment.code s) h))
  have hmarks := flushMarks_frame g (storeCode Command.flushSegment.code s)
  have hslot := flushMarks_slot g (storeCode Command.flushSegment.code s)
  rw [unmarked_length] at hrun
  generalize flushMarks g (storeCode Command.flushSegment.code s) = u at hrun hmarks hslot
  have hfield := fun {α : Type} (p : State → α) => congrArg p hmarks
  exact ⟨_, congrArg Host.Outcome.next hrun, congrArg (CmdResult.done.put _) (hfield State.win), hslot,
    state_ext rfl (hfield State.ev) (hfield State.cq) rfl (hfield State.targets) (hfield State.segs) (hfield State.entries)
      (hfield State.boxes) (hfield State.rstHeld) (hfield State.pending)⟩

end Sys2Proof.Machine
end

section
/-! SUPPORT. The dispatch: what the evaluation of a head does by each check of R46, and the begin of an attempt by a promotion or by the expiry of
a wait (section 3.2, R65 to R69). -/

namespace Sys2Proof.Machine

open Sys2Proof.Claims

/-! ### The checks on a head -/

/-- HEAD_EVALUATION of a non-empty list whose engine has no active slot (R45). -/
theorem exec_headEvaluation {s : State} {g : Seg} {n : SlotId} {rest : List SlotId} (held : Nat) (ho : s.live = true)
    (hl : (s.seg g).list = n :: rest) (hidle : (s.engine g).active = none) :
    exec (.headEvaluation g held) s = .next (evaluateHead g held n s) := by
  refine congrArg Host.Outcome.next ((onWire_live _ ho).trans ?_)
  simp only [hl, hidle]

/-- Check 2 of R46 stops a head: its target is quarantined, and its kind is not PROBE. -/
abbrev HeldByQuarantine (s : State) (n : SlotId) : Prop := (s.entryOf n).presence = .quarantined ∧ ¬ HasKind (s.slot n) .probe

/-- The checks of R46 on an unmarked head. -/
theorem evaluateHead_unmarked {s : State} {g : Seg} {n : SlotId} (held : Nat) (hm : (s.slot n).mark = .none) :
    evaluateHead g held n s =
      if HeldByQuarantine s n then completeHead g n .targetQuarantined s
      else if downAndFlushing (s.seg g) then completeHead g n .segmentDown s
      else if (s.seg g).state = .up ∧ s.win.dispatchHold = false ∧ (s.engine g).state = .idle then promote g n held s
      else s := by
  unfold evaluateHead
  simp only [(status_eq_none _).mpr hm, HeldByQuarantine, ne_eq, ofCode_eq_some, downFlushing_iff]

/-- A head that a check decides completes with the status of the first such check (R46, R47). -/
theorem evaluateHead_completes {s : State} {g : Seg} {n : SlotId} {st : Status} (held : Nat)
    (h : HasMark (s.slot n) st ∨ ((s.slot n).mark = .none ∧ HeldByQuarantine s n ∧ st = .targetQuarantined) ∨
      ((s.slot n).mark = .none ∧ ¬ HeldByQuarantine s n ∧ downAndFlushing (s.seg g) ∧ st = .segmentDown)) :
    evaluateHead g held n s = completeHead g n st s := by
  obtain hmark | ⟨hm, hq, rfl⟩ | ⟨hm, hq, hd, rfl⟩ := h
  · unfold evaluateHead
    simp only [(status_eq_some _ _).mpr hmark]
  · rw [evaluateHead_unmarked held hm, if_pos hq]
  · rw [evaluateHead_unmarked held hm, if_neg hq, if_pos hd]

/-- A head that no check completes is promoted, or waits (R46, R48). -/
theorem evaluateHead_passes {s : State} {g : Seg} {n : SlotId} (held : Nat) (hm : (s.slot n).mark = .none) (hq : ¬ HeldByQuarantine s n)
    (hd : ¬ downAndFlushing (s.seg g)) :
    evaluateHead g held n s =
      if (s.seg g).state = .up ∧ s.win.dispatchHold = false ∧ (s.engine g).state = .idle then promote g n held s else s := by
  rw [evaluateHead_unmarked held hm, if_neg hq, if_neg hd]

/-- The completion of a head: the slot leaves the list, and its record joins the queue (R47). -/
theorem completeHead_spec {s : State} {g : Seg} {n : SlotId} {rest : List SlotId} (st : Status) (hl : (s.seg g).list = n :: rest) :
    Completes s (completeHead g n st s) n (s.slot n) (s.entryOf n) st ∧ RaisesBesideReady s (completeHead g n st s) [] ∧
      OnlySegment s (completeHead g n st s) g { s.seg g with list := rest } ∧
      completeHead g n st s =
        { s with
          slots := (completeHead g n st s).slots, targets := (completeHead g n st s).targets, cq := (completeHead g n st s).cq
          ev := (completeHead g n st s).ev, segs := (completeHead g n st s).segs } := by
  obtain ⟨hcompletes, hraises, hframe⟩ := completeSlot_completes (s.updSeg g (fun x => { x with list := x.list.tail })) n st
  have hsegment := onlySegment_updSeg s g (fun x => { x with list := x.list.tail })
  rw [hl] at hsegment
  have hfield := fun {α : Type} (p : State → α) => congrArg p hframe
  exact ⟨completes_transfer hcompletes (fun _ _ => rfl) rfl rfl (fun _ _ => rfl) rfl rfl rfl, hraises,
    onlySegment_congr hsegment rfl (hfield State.segs),
    state_ext (hfield State.win) rfl rfl rfl rfl rfl (hfield State.entries) (hfield State.boxes) (hfield State.rstHeld)
      (hfield State.pending)⟩

/-- Settles O43: the first check of R46 that decides the head completes it, and without one it waits unless it is promoted. -/
theorem headsCompleteOrWait : Obligations.HeadsCompleteOrWait := by
  intro s g n rest held ho hl hidle
  refine ⟨_, exec_headEvaluation held ho hl hidle, fun st hst => ?_, fun hm hq hd hwait => ?_⟩
  · rw [evaluateHead_completes held hst]
    exact completeHead_spec st hl
  · rw [evaluateHead_passes held hm hq hd]
    refine if_neg fun ⟨hup, hhold, hengine⟩ => ?_
    obtain h | h | h := hwait
    · exact h hup
    · rw [hhold] at h; exact Bool.false_ne_true h
    · exact h hengine

/-! ### The begin of an attempt -/

/-- An attempt that is begun: the slot is not marked, and its failures do not exceed the retry limit (R65, R100). -/
theorem beginAttempt_begun {s : State} {g : Seg} {n : SlotId} {k : TargetId} (held : Nat) (ha : (s.engine g).active = some n)
    (hm : (s.slot n).mark = .none) (hk : s.targetIndex n = some k) (hr : (s.slot n).failures ≤ (s.target k).retryLimit.toNat) :
    beginAttempt g held s = meetBus g held (fixAttempt g n s) := by
  have hbegun : s.notBegun g n = none := if_neg (by rw [entryOf_eq hk]; exact Nat.not_lt.mpr hr)
  unfold beginAttempt
  simp only [ha, (status_eq_none _).mpr hm, hbegun]

/-- What the bus makes of an attempt does not rest on the engine that the segment had before. -/
theorem metBus_engine (x : Segment) (d e : Engine) (held : Nat) : metBus { x with engine := d } e held = metBus x e held := rfl

/-- What the begin of an attempt leaves (R65 to R69). -/
theorem beginAttempt_spec {s : State} {g : Seg} {n : SlotId} {k : TargetId} (held : Nat) (ha : (s.engine g).active = some n)
    (hm : (s.slot n).mark = .none) (hk : s.targetIndex n = some k) (hr : (s.slot n).failures ≤ (s.target k).retryLimit.toNat)
    (hbus : (s.seg g).known = true ∨ ServesNothing s g) :
    OnlySlot s (beginAttempt g held s) n { s.slot n with bytesAccepted := 0, readData := [] } ∧
      OnlySegment s (beginAttempt g held s) g (metBus (s.seg g) (attemptEngine s g n k (s.engine g).lastFailure) held) ∧
      Raises s (beginAttempt g held s) (if Stuck (s.seg g) held then [.segChange g] else []) ∧
      beginAttempt g held s =
        { s with slots := (beginAttempt g held s).slots, ev := (beginAttempt g held s).ev, segs := (beginAttempt g held s).segs } := by
  rw [beginAttempt_begun held ha hm hk hr]
  obtain ⟨u, hu⟩ : ∃ u, u = fixAttempt g n s := ⟨_, rfl⟩
  have hfix : u = (s.updSlot n (fun x => { x with bytesAccepted := 0, readData := [] })).updSeg g
      (fun x => { x with engine := attemptEngine s g n k (s.engine g).lastFailure }) := hu.trans (fixAttempt_spec g n k s hk)
  rw [← hu]
  have hfixed : OnlySegment s u g { s.seg g with engine := attemptEngine s g n k (s.engine g).lastFailure } := by
    rw [hfix]; exact onlySegment_updSeg _ g _
  have hengine : u.engine g = attemptEngine s g n k (s.engine g).lastFailure := congrArg Segment.engine hfixed.1
  obtain ⟨hsegment, hraises, hframe⟩ := meetBus_spec g held u (by
    simpa only [ServesNothing, State.ctx, hfixed.1] using hbus)
  rw [hfixed.1, hengine, metBus_engine] at hsegment
  rw [hfixed.1] at hraises
  have hfield := fun {α : Type} (p : State → α) => congrArg p hframe
  refine ⟨onlySlot_of_updSlot (u := s) (fun x => { x with bytesAccepted := 0, readData := [] }) rfl ?_,
    onlySegment_trans hfixed hsegment, raises_congr hraises ?_ rfl, ?_⟩
  · rw [hfield State.slots, hfix]; rfl
  · rw [hfix]; rfl
  · subst hfix
    exact state_ext (hfield State.win) rfl (hfield State.cq) rfl (hfield State.targets) rfl (hfield State.entries) (hfield State.boxes)
      (hfield State.rstHeld) (hfield State.pending)

/-- What a promotion leaves: the head is the active slot, and its first attempt has begun (R48, R65, R101). -/
theorem promote_spec {s : State} {g : Seg} {n : SlotId} {k : TargetId} {rest : List SlotId} (held : Nat)
    (hl : (s.seg g).list = n :: rest) (hm : (s.slot n).mark = .none) (hk : s.targetIndex n = some k)
    (hr : (s.slot n).failures ≤ (s.target k).retryLimit.toNat) (hbus : (s.seg g).known = true ∨ ServesNothing s g) :
    OnlySlot s (promote g n held s) n { s.slot n with state := .active, bytesAccepted := 0, readData := [] } ∧
      OnlySegment s (promote g n held s) g (metBus { s.seg g with list := rest } (attemptEngine s g n k none) held) ∧
      Raises s (promote g n held s) (if Stuck (s.seg g) held then [.segChange g] else []) ∧
      promote g n held s =
        { s with slots := (promote g n held s).slots, ev := (promote g n held s).ev, segs := (promote g n held s).segs } := by
  obtain ⟨u, hu⟩ : ∃ u, u = (s.updSlot n (fun x => { x with state := .active })).updSeg g (fun x => { x with
    list := x.list.tail, engine := { active := some n } }) := ⟨_, rfl⟩
  have hpromote : promote g n held s = beginAttempt g held u := by rw [hu]; rfl
  have hactive : OnlySlot s u n { s.slot n with state := .active } :=
    onlySlot_of_updSlot (u := s) (fun x => { x with state := .active }) rfl (by rw [hu]; rfl)
  have hhead : OnlySegment s u g { s.seg g with list := rest, engine := { active := some n } } := by
    have h := onlySegment_updSeg (s.updSlot n (fun x => { x with state := .active })) g
      (fun x => { x with list := x.list.tail, engine := { active := some n } })
    rw [updSlot_seg, hl] at h
    exact hu ▸ h
  have htarget : u.target k = s.target k := by rw [hu]; rfl
  have hengine : u.engine g = { active := some n } := congrArg Segment.engine hhead.1
  have hattempt : attemptEngine u g n k (u.engine g).lastFailure = attemptEngine s g n k none := by
    simp only [attemptEngine, htarget, hhead.1, hengine]
  obtain ⟨hslot, hsegment, hraises, hframe⟩ := beginAttempt_spec (s := u) (n := n) (k := k) held (congrArg Engine.active hengine)
    (by rw [hactive.1]; exact hm) (by simpa only [State.targetIndex, hactive.1] using hk) (by rw [hactive.1, htarget]; exact hr)
    (by simpa only [ServesNothing, State.ctx, hhead.1] using hbus)
  rw [hactive.1] at hslot
  rw [hattempt, hhead.1] at hsegment
  rw [hhead.1] at hraises
  rw [← hpromote] at hslot hsegment hraises hframe
  have hfield := fun {α : Type} (p : State → α) => congrArg p hframe
  refine ⟨⟨hslot.1, fun m hne => (hslot.2 m hne).trans (hactive.2 m hne)⟩, onlySegment_trans hhead hsegment,
    raises_congr hraises (by rw [hu]; rfl) rfl, ?_⟩
  subst hu
  exact state_ext (hfield State.win) rfl (hfield State.cq) rfl (hfield State.targets) rfl (hfield State.entries) (hfield State.boxes)
    (hfield State.rstHeld) (hfield State.pending)

/-- The expiry of the timer of BACKOFF or of POLL_WAIT begins an attempt (R77, R98). -/
theorem exec_waitExpiry {i : Instr} {s : State} {g : Seg} {held : Nat} (ho : s.live = true)
    (h : i = .backoffTimerExpiry g held ∧ (s.engine g).state = .backoff ∧ (s.engine g).backoffTimer.isSome = true ∨
      i = .pollTimerExpiry g held ∧ (s.engine g).state = .pollWait ∧ (s.engine g).pollTimer.isSome = true) :
    exec i s = .next (beginAttempt g held s) := by
  obtain ⟨rfl, hexpiry⟩ | ⟨rfl, hexpiry⟩ := h
  · exact congrArg Host.Outcome.next ((onWire_live _ ho).trans (if_pos hexpiry))
  · exact congrArg Host.Outcome.next ((onWire_live _ ho).trans (if_pos hexpiry))

/-- Settles O44: a promotion and the expiry of a wait both begin an attempt, and the bus is met by what it is found as. -/
theorem attemptsBegin : Obligations.AttemptsBegin := by
  refine ⟨fun s g n k rest held ho hl hidle hm hk hpresence hup hhold hengine hr hbus => ?_,
    fun i s g n k held ho hi ha hup hm hk hr hbus => ⟨_, exec_waitExpiry ho hi, beginAttempt_spec held ha hm hk hr hbus⟩⟩
  have hquarantine : ¬ HeldByQuarantine s n := by
    rw [HeldByQuarantine, entryOf_eq hk]
    exact fun ⟨hq, hkind⟩ => hpresence.elim (fun h => h hq) hkind
  have hdown : ¬ downAndFlushing (s.seg g) := by simp [downAndFlushing, hup]
  have hexec := exec_headEvaluation held ho hl hidle
  rw [evaluateHead_passes held hm hquarantine hdown, if_pos ⟨hup, hhold, hengine⟩] at hexec
  exact ⟨_, hexec, promote_spec held hl hm hk hr hbus⟩

end Sys2Proof.Machine
end

section
/-! SUPPORT. What a row of the engine that is taken leaves, said once for all of them: the row as the update it makes, the change of one slot, one
entry and one segment, the completion of the slot after such a change, and the failure evaluation after a change of the segment (chapter 4). -/

namespace Sys2Proof.Machine

open Sys2Proof.Claims

/-! ### A row on the wire -/

/-- A row of the wire whose condition holds is taken. -/
theorem onWire_taken {c : State → Prop} [DecidablePred c] {f : State → State} {s : State} (ho : s.live = true) (h : c s) :
    onWire (fun u => if c u then f u else u) s = f s :=
  (onWire_live _ ho).trans (if_pos h)

/-- A row of the wire whose condition fails leaves the state (notes/assumptions/1.md). -/
theorem onWire_not_taken {c : State → Prop} [DecidablePred c] {f : State → State} {s : State} (h : ¬ c s) :
    onWire (fun u => if c u then f u else u) s = s := by
  simp only [onWire, if_neg h, ite_self]

/-- A row that changes one segment alone. -/
theorem exec_updSeg {i : Instr} {s : State} {g : Seg} {f : Segment → Segment} {x : Segment} (h : exec i s = .next (s.updSeg g f))
    (hx : f (s.seg g) = x) : ∃ t : State, exec i s = .next t ∧ OnlySegment s t g x ∧ t = { s with segs := t.segs } :=
  ⟨_, h, hx ▸ onlySegment_updSeg s g f, rfl⟩

/-- A row that changes one slot and one segment alone. -/
theorem exec_updSlot_updSeg {i : Instr} {s : State} {n : SlotId} {g : Seg} {f : Slot → Slot} {h : Segment → Segment} {x : Slot}
    {y : Segment} (hexec : exec i s = .next ((s.updSlot n f).updSeg g h)) (hx : f (s.slot n) = x) (hy : h (s.seg g) = y) :
    ∃ t : State, exec i s = .next t ∧ OnlySlot s t n x ∧ OnlySegment s t g y ∧ t = { s with slots := t.slots, segs := t.segs } :=
  ⟨_, hexec, hx ▸ onlySlot_of_updSlot (u := s) f rfl rfl, hy ▸ onlySegment_updSeg (s.updSlot n f) g h, rfl⟩

/-- Two updates of one segment are one. -/
theorem updSeg_updSeg (s : State) (g : Seg) (f h : Segment → Segment) : (s.updSeg g f).updSeg g h = s.updSeg g (fun x => h (f x)) := by
  refine state_ext rfl rfl rfl rfl rfl (segs_ext fun j => ?_) rfl rfl rfl rfl
  by_cases hj : j = g <;> simp [hj]

/-- An update that leaves the segment as it is leaves the state. -/
theorem updSeg_self {s : State} {g : Seg} {f : Segment → Segment} (h : f (s.seg g) = s.seg g) : s.updSeg g f = s := by
  refine state_ext rfl rfl rfl rfl rfl (segs_ext fun j => ?_) rfl rfl rfl rfl
  rw [updSeg_seg, h]
  split
  · rename_i hj; rw [hj]
  · rfl

/-- A row that changes one segment and raises one flag. -/
theorem raises_updSeg_raise (s : State) (g : Seg) (f : Segment → Segment) (e : EventFlag) : Raises s ((s.updSeg g f).raise e) [e] :=
  raises_congr (raises_raise (s.updSeg g f) e) rfl rfl

/-- A start on a segment whose context serves no mailbox (R151). -/
theorem contextStart_serves {g : Seg} {s : State} (h : ServesNothing s g) :
    contextStart g s = s.updSeg g (fun x => { x with ctx := { phase := .address } }) := by
  unfold contextStart
  rw [endPhase_serves g s h]
  rfl

/-- A stop on a segment whose context serves no mailbox (R151). -/
theorem contextStop_serves {g : Seg} {s : State} (h : ServesNothing s g) :
    contextStop g s = s.updSeg g (fun x => { x with ctx := { phase := .listen } }) := by
  unfold contextStop
  rw [endPhase_serves g s h]
  rfl

/-! ### The changes of an attempt -/

/-- From s to u only slot n, Target Table entry k and segment g change, to x, e and y. -/
structure OnlyAttempt (s u : State) (n : SlotId) (k : TargetId) (g : Seg) (x : Slot) (e : TargetEntry) (y : Segment) : Prop where
  slot : OnlySlot s u n x
  entry : OnlyEntry s u k e
  segment : OnlySegment s u g y
  frame : u = { s with slots := u.slots, targets := u.targets, segs := u.segs }

namespace OnlyAttempt

variable {s u : State} {n : SlotId} {k : TargetId} {g : Seg} {x : Slot} {e : TargetEntry} {y : Segment}

theorem refl (s : State) (n : SlotId) (k : TargetId) (g : Seg) : OnlyAttempt s s n k g (s.slot n) (s.target k) (s.seg g) :=
  ⟨⟨rfl, fun _ _ => rfl⟩, ⟨rfl, fun _ _ => rfl⟩, ⟨rfl, fun _ _ => rfl⟩, rfl⟩

theorem updSlot (h : OnlyAttempt s u n k g x e y) (f : Slot → Slot) : OnlyAttempt s (u.updSlot n f) n k g (f x) e y := by
  refine ⟨⟨?_, fun m hm => ?_⟩, h.entry, h.segment, ?_⟩
  · rw [updSlot_slot, if_pos rfl, h.slot.1]
  · rw [updSlot_slot, if_neg hm, h.slot.2 m hm]
  · rw [h.frame]; rfl

theorem updTarget (h : OnlyAttempt s u n k g x e y) (f : TargetEntry → TargetEntry) : OnlyAttempt s (u.updTarget k f) n k g x (f e) y := by
  refine ⟨h.slot, ⟨?_, fun j hj => ?_⟩, h.segment, ?_⟩
  · rw [updTarget_target, if_pos rfl, h.entry.1]
  · rw [updTarget_target, if_neg hj, h.entry.2 j hj]
  · rw [h.frame]; rfl

theorem updSeg (h : OnlyAttempt s u n k g x e y) (f : Segment → Segment) : OnlyAttempt s (u.updSeg g f) n k g x e (f y) := by
  refine ⟨h.slot, h.entry, ⟨?_, fun j hj => ?_⟩, ?_⟩
  · rw [updSeg_seg, if_pos rfl, h.segment.1]
  · rw [updSeg_seg, if_neg hj, h.segment.2 j hj]
  · rw [h.frame]; rfl

/-- Before the slot completes, the queue and the flags are as they were. -/
theorem keeps (h : OnlyAttempt s u n k g x e y) :
    u.cq = s.cq ∧ u.ev = s.ev ∧ RaisesBesideReady s u [] ∧
      u = { s with slots := u.slots, targets := u.targets, cq := u.cq, ev := u.ev, segs := u.segs } := by
  have hfield := fun {α : Type} (p : State → α) => congrArg p h.frame
  have hev : u.ev = s.ev := hfield State.ev
  exact ⟨hfield State.cq, hev, ⟨by rw [hev], fun e _ => by simp [State.flag, hev]⟩,
    state_ext (hfield State.win) rfl rfl rfl rfl rfl (hfield State.entries) (hfield State.boxes) (hfield State.rstHeld)
      (hfield State.pending)⟩

/-- The completion of the slot after such changes, with what the engine then does to its segment (R39). -/
theorem completes (h : OnlyAttempt s u n k g x e y) (hk : s.targetIndex n = some k) (hnotify : x.notifyNow = (s.slot n).notifyNow)
    (htarget : x.target = (s.slot n).target) (st : Status) (f : Segment → Segment) :
    Completes s ((completeSlot n st u).updSeg g f) n x e st ∧ RaisesBesideReady s ((completeSlot n st u).updSeg g f) [] ∧
      OnlySegment s ((completeSlot n st u).updSeg g f) g (f y) ∧
      (completeSlot n st u).updSeg g f =
        { s with
          slots := ((completeSlot n st u).updSeg g f).slots, targets := ((completeSlot n st u).updSeg g f).targets
          cq := ((completeSlot n st u).updSeg g f).cq, ev := ((completeSlot n st u).updSeg g f).ev
          segs := ((completeSlot n st u).updSeg g f).segs } := by
  obtain ⟨hslot, hentry, hsegment, hframe⟩ := h
  have hfield := fun {α : Type} (p : State → α) => congrArg p hframe
  have hindex : u.targetIndex n = s.targetIndex n := by simp only [State.targetIndex, hslot.1, htarget]
  obtain ⟨hcompletes, hraises, hrest⟩ := completeSlot_completes u n st
  rw [hslot.1, entryOf_eq (hindex.trans hk), hentry.1] at hcompletes
  have hflag : ∀ f, u.flag f = s.flag f := fun f => by simp only [State.flag, hfield State.ev]
  have hfield' := fun {α : Type} (p : State → α) => congrArg p hrest
  refine ⟨?_, ⟨?_, fun f hf => ?_⟩, ⟨?_, fun j hj => ?_⟩, ?_⟩
  · refine completes_congr (completes_transfer hcompletes hslot.2 (by rw [hslot.1, hnotify]) hindex (fun j hj => ?_) (hfield State.cq)
      (hflag _) (congrArg EventUnit.timeBase (hfield State.ev))) rfl rfl rfl rfl
    exact hentry.2 j fun hjk => hj (hk.trans (congrArg some hjk.symm))
  · exact hraises.1.trans (by rw [hfield State.ev]; rfl)
  · rw [← hflag]; exact hraises.2 f hf
  · rw [updSeg_seg, if_pos rfl, completeSlot_seg, hsegment.1]
  · rw [updSeg_seg, if_neg hj, completeSlot_seg, hsegment.2 j hj]
  · exact state_ext ((hfield' State.win).trans (hfield State.win)) rfl rfl rfl rfl rfl
      ((hfield' State.entries).trans (hfield State.entries)) ((hfield' State.boxes).trans (hfield State.boxes))
      ((hfield' State.rstHeld).trans (hfield State.rstHeld)) ((hfield' State.pending).trans (hfield State.pending))

end OnlyAttempt

/-! ### The failure evaluation after a change of the segment -/

/-- The failure evaluation on a state u that differs from s by flags and by the segment of the engine, whose engine and configuration it
leaves (R96). -/
theorem evaluateFailure_after {s u : State} {g : Seg} {n : SlotId} {k : TargetId} {x : Segment} {fs : List EventFlag} (f : Failure)
    (hk : s.targetIndex n = some k) (hactive : (s.engine g).active = some n) (hsegment : OnlySegment s u g x)
    (hengine : x.engine = s.engine g) (hconfig : x.config = (s.seg g).config) (hraises : Raises s u fs)
    (hframe : u = { s with ev := u.ev, segs := u.segs }) (hflags : ∀ e ∈ fs, ∃ h : Seg, e = .segChange h) :
    Evaluates s (evaluateFailure g f u) g n k f x fs := by
  have hfield := fun {α : Type} (p : State → α) => congrArg p hframe
  refine evaluateFailure_spec f hk (by rw [hengine, hactive]) (by rw [hengine]) (by rw [hengine]) hconfig hsegment (hfield State.slots)
    (hfield State.targets) (hfield State.cq) hraises.1
    ⟨hfield State.win, hfield State.entries, hfield State.boxes, hfield State.rstHeld, hfield State.pending⟩ hraises.2 ?_ ?_
  · intro h; obtain ⟨_, hne⟩ := hflags _ h; cases hne
  · intro h; obtain ⟨_, hne⟩ := hflags _ h; cases hne

/-- The failure evaluation after an update of the segment that leaves its engine and its configuration. -/
theorem evaluateFailure_updSeg {s : State} {g : Seg} {n : SlotId} {k : TargetId} {h : Segment → Segment} (f : Failure)
    (hk : s.targetIndex n = some k) (hactive : (s.engine g).active = some n) (hengine : (h (s.seg g)).engine = s.engine g)
    (hconfig : (h (s.seg g)).config = (s.seg g).config) :
    Evaluates s (evaluateFailure g f (s.updSeg g h)) g n k f (h (s.seg g)) [] :=
  evaluateFailure_after f hk hactive (onlySegment_updSeg s g h) hengine hconfig (raises_congr (raises_refl s) rfl rfl) rfl (by simp)

end Sys2Proof.Machine
end

section
/-! SUPPORT. The engine in WAIT_FREE: an attempt that is not begun, the start on a free bus, and the expiry of the busy timer (section 4.3). -/

namespace Sys2Proof.Machine

open Sys2Proof.Claims

/-! ### An attempt that is not begun -/

/-- A marked slot ends with its mark at the begin of an attempt (R65, R80). -/
theorem beginAttempt_marked {s : State} {g : Seg} {n : SlotId} {st : Status} (held : Nat) (ha : (s.engine g).active = some n)
    (hm : HasMark (s.slot n) st) : beginAttempt g held s = finishSlot g n st s := by
  unfold beginAttempt
  simp only [ha, (status_eq_some _ _).mpr hm]

/-- A slot whose failures exceed the retry limit ends with its last failure status at the begin of an attempt (R65, R100, R97). -/
theorem beginAttempt_exhausted {s : State} {g : Seg} {n : SlotId} {k : TargetId} {f : Failure} (held : Nat)
    (ha : (s.engine g).active = some n) (hm : (s.slot n).mark = .none) (hk : s.targetIndex n = some k)
    (hr : (s.target k).retryLimit.toNat < (s.slot n).failures) (hf : (s.engine g).lastFailure = some f) :
    beginAttempt g held s = finishSlot g n f.status (s.updTarget k (fun e => givenUp e f)) := by
  have hended : s.notBegun g n = some f := (if_pos (by rwa [entryOf_eq hk])).trans hf
  unfold beginAttempt
  simp only [ha, (status_eq_none _).mpr hm, hended, markAbsent_spec n k f s hk]

/-- A slot without a set mark has no status of a mark (R29). -/
theorem not_hasMark {x : Slot} {st : Status} (h : x.mark = .none) : ¬ HasMark x st := by
  rintro (⟨hm, -⟩ | ⟨hm, -⟩) <;> rw [h] at hm <;> cases hm

/-- A set mark has one status. -/
theorem hasMark_unique {x : Slot} {st st' : Status} (h : HasMark x st) (h' : HasMark x st') : st = st' :=
  Option.some.inj (((status_eq_some x st).mpr h).symm.trans ((status_eq_some x st').mpr h'))

theorem exists_hasMark {x : Slot} (h : x.mark ≠ .none) : ∃ st, HasMark x st := by
  obtain ⟨st, hst⟩ := Option.ne_none_iff_exists'.mp (mt (status_eq_none x).mp h)
  exact ⟨st, (status_eq_some x st).mp hst⟩

/-- Settles O45: the begin of an attempt reads the mark, then compares the failures with the retry limit, and either ends the slot. -/
theorem attemptsNotBegun : Obligations.AttemptsNotBegun := by
  intro i s g n k held ho hi ha hk
  refine ⟨_, exec_waitExpiry ho hi, ?_⟩
  by_cases hm : (s.slot n).mark = .none
  · by_cases hended : (s.target k).retryLimit.toNat < (s.slot n).failures ∧ (s.engine g).lastFailure ≠ none
    · obtain ⟨hr, hlast⟩ := hended
      obtain ⟨f, hf⟩ := Option.ne_none_iff_exists'.mp hlast
      rw [beginAttempt_exhausted held ha hm hk hr hf]
      obtain ⟨hcompletes, hrest⟩ := ((OnlyAttempt.refl s n k g).updTarget (fun e => givenUp e f)).completes hk rfl rfl f.status
        (fun x => { x with engine := {} })
      refine ⟨fun st hst => absurd hst (not_hasMark hm), fun f' _ _ hf' => ?_, fun _ => hrest⟩
      obtain rfl := Option.some.inj (hf.symm.trans hf')
      exact hcompletes
    · refine ⟨fun st hst => absurd hst (not_hasMark hm), fun f _ hr hf => absurd ⟨hr, by rw [hf]; simp⟩ hended, fun h => ?_⟩
      exact absurd h (not_or.mpr ⟨not_not_intro hm, hended⟩)
  · obtain ⟨st, hst⟩ := exists_hasMark hm
    rw [beginAttempt_marked held ha hst]
    obtain ⟨hcompletes, hrest⟩ := (OnlyAttempt.refl s n k g).completes hk rfl rfl st (fun x => { x with engine := {} })
    refine ⟨fun st' hst' => ?_, fun f hnone => absurd hnone hm, fun _ => hrest⟩
    obtain rfl := hasMark_unique hst hst'
    exact hcompletes

/-! ### The ends of WAIT_FREE -/

/-- ENGINE_START on a free bus (R67). -/
theorem exec_engineStart {s : State} {g : Seg} (ho : s.live = true) (hwait : (s.engine g).state = .waitFree) (hup : (s.seg g).state = .up)
    (hfree : LinesFree (s.seg g)) : exec (.engineStart g) s = .next (sendStart g s) :=
  congrArg Host.Outcome.next (onWire_taken ho ⟨hwait, hup, (busFree_now _ _).mpr hfree⟩)

/-- Settles O46: ENGINE_START is taken on free lines alone, and the busy timer ends the attempt. -/
theorem waitFreeEnds : Obligations.WaitFreeEnds := by
  refine ⟨fun s g ho hwait hup => ⟨fun hfree hctx => ?_, fun hfree => ?_⟩, fun s g n k ho hwait htimer ha hk => ?_⟩
  · have hstart := exec_engineStart ho hwait hup hfree
    rw [sendStart_spec g s hctx] at hstart
    exact exec_updSeg hstart rfl
  · exact congrArg Host.Outcome.next (onWire_not_taken fun ⟨_, _, hlines⟩ => hfree ((busFree_now _ _).mp hlines))
  · exact ⟨_, congrArg Host.Outcome.next (onWire_taken ho ⟨hwait, htimer⟩),
      evaluateFailure_after .busBusy hk ha ⟨rfl, fun _ _ => rfl⟩ rfl rfl (raises_refl s) rfl (by simp)⟩

end Sys2Proof.Machine
end

section
/-! SUPPORT. The bytes of an attempt: the sequences of the kinds, the address bytes, the write and read bytes with their acknowledges, and a mark that
is read at an acknowledge (section 4.4, R79, R80). -/

namespace Sys2Proof.Machine

open Sys2Proof.Claims

/-! ### The sequences of the kinds -/

/-- The direction bit of the first address byte, by the kind (R72, R73). -/
theorem firstDirection_eq {x : Slot} {kind : Kind} (h : HasKind x kind) :
    x.firstDirection = if kind = .read ∨ (kind = .blockRead ∧ x.writeCount = 0) then .read else .write := by
  unfold Slot.firstDirection
  rw [(ofCode_eq_some x kind).mpr h]
  cases kind with
  | blockRead => simp
  | write | read | writeRead | probe | poll => simp

theorem engineByte_address {s : State} {g : Seg} {n : SlotId} (ha : (s.engine g).active = some n) (hp : (s.engine g).pos = .address) :
    s.engineByte g = some ((s.engine g).address ++ (if (s.slot n).firstDirection = .read then 1#1 else 0#1)) := by
  unfold State.engineByte
  simp only [ha, hp]
  cases (s.slot n).firstDirection with
  | write | read => rfl

theorem engineByte_secondAddress {s : State} {g : Seg} {n : SlotId} (ha : (s.engine g).active = some n)
    (hp : (s.engine g).pos = .secondAddress) : s.engineByte g = some ((s.engine g).address ++ 1#1) := by
  unfold State.engineByte
  simp only [ha, hp]

theorem engineByte_writeByte {s : State} {g : Seg} {n : SlotId} {i : Nat} (ha : (s.engine g).active = some n)
    (hp : (s.engine g).pos = .writeByte i) : s.engineByte g = some (byteAt (s.slot n).writeList i) := by
  unfold State.engineByte
  simp only [ha, hp]

/-- At a read byte and at the closing stop the engine sends no byte. -/
theorem engineByte_none {s : State} {g : Seg} (hp : (∃ i, (s.engine g).pos = .readByte i) ∨ (s.engine g).pos = .closingStop) :
    s.engineByte g = none := by
  unfold State.engineByte
  cases (s.engine g).active with
  | none => rfl
  | some n => obtain ⟨i, hp⟩ | hp := hp <;> rw [hp]

theorem stepAfterWrites_more {x : Slot} {i : Nat} (h : i < x.writeCount.toNat) : x.stepAfterWrites i = .writeByte i := if_pos h

/-- After the last write byte the kinds that read send a second address byte, and a WRITE closes (R70, R72 to R74). -/
theorem stepAfterWrites_last {x : Slot} {kind : Kind} (h : HasKind x kind) (hl : LengthRule kind x.writeCount.toNat x.readCount.toNat)
    (hw : 1 ≤ x.writeCount.toNat) :
    x.stepAfterWrites x.writeCount.toNat = if kind = .write then .closingStop else .secondAddress := by
  unfold Slot.stepAfterWrites
  rw [if_neg (Nat.lt_irrefl _), (ofCode_eq_some x kind).mpr h]
  cases kind with
  | read | probe => exact absurd hl.1 (by omega)
  | write | writeRead | blockRead | poll => rfl

/-- The step after the first address byte, for a slot that meets its length rule (R36, R70 to R74). -/
theorem stepAfterAddress_eq {x : Slot} {kind : Kind} : HasKind x kind → LengthRule kind x.writeCount.toNat x.readCount.toNat →
    x.stepAfterAddress = match kind with
      | .probe => .closingStop
      | .read => .readByte 0
      | .write | .writeRead | .poll => .writeByte 0
      | .blockRead => if x.writeCount = 0 then .readByte 0 else .writeByte 0 := by
  intro h hl
  unfold Slot.stepAfterAddress
  rw [(ofCode_eq_some x kind).mpr h]
  cases kind with
  | probe | read => rfl
  | write | writeRead | poll => exact stepAfterWrites_more hl.1
  | blockRead =>
    dsimp only
    split
    · rfl
    · rename_i hw
      exact stepAfterWrites_more (Nat.pos_of_ne_zero fun h0 => hw (BitVec.eq_of_toNat_eq h0))

/-- The first address byte is not followed by a second one: a repeated start comes after a write byte (R72). -/
theorem stepAfterAddress_ne_secondAddress {x : Slot} {kind : Kind} (h : HasKind x kind)
    (hl : LengthRule kind x.writeCount.toNat x.readCount.toNat) : x.stepAfterAddress ≠ .secondAddress := by
  rw [stepAfterAddress_eq h hl]
  cases kind with
  | blockRead => dsimp only; split <;> simp
  | write | read | writeRead | probe | poll => simp

/-- The last byte of a READ or a WRITE_READ is the one that fills the read count (R71, R72). -/
theorem lastRead_counted {x : Slot} {kind : Kind} (h : HasKind x kind) (hk : kind = .read ∨ kind = .writeRead) {i : Nat} (b : Byte)
    (hi : i < x.readCount.toNat) : x.lastRead i b = true ↔ i + 1 = x.readCount.toNat := by
  have hlast : x.lastRead i b = decide (x.readCount.toNat ≤ i + 1) := by
    unfold Slot.lastRead
    rw [(ofCode_eq_some x kind).mpr h]
    obtain rfl | rfl := hk <;> rfl
  rw [hlast, decide_eq_true_iff]
  omega

theorem lastRead_poll {x : Slot} (h : HasKind x .poll) (i : Nat) (b : Byte) : x.lastRead i b = true := by
  unfold Slot.lastRead
  rw [(ofCode_eq_some x _).mpr h]

/-- The count byte of a BLOCK_READ is the last byte when it calls for none, or for more than the buffer holds (R73). -/
theorem lastRead_countByte {x : Slot} (h : HasKind x .blockRead) (b : Byte) :
    x.lastRead 0 b = true ↔ b.toNat = 0 ∨ 32 ≤ b.toNat := by
  unfold Slot.lastRead
  rw [(ofCode_eq_some x _).mpr h]
  exact decide_eq_true_iff

/-- After the count byte c of a BLOCK_READ the last byte is the c-th (R73). -/
theorem lastRead_block {x : Slot} (h : HasKind x .blockRead) {i : Nat} (b : Byte) {c : Byte} {more : List Byte}
    (hx : x.readData = c :: more) (hi : 1 ≤ i) (hc : i ≤ c.toNat) : x.lastRead i b = true ↔ i = c.toNat := by
  have hlast : x.lastRead i b = decide (c.toNat ≤ i) := by
    unfold Slot.lastRead
    rw [(ofCode_eq_some x _).mpr h, hx]
    exact if_neg (by omega)
  rw [hlast, decide_eq_true_iff]
  omega

theorem readFailure_eq {x : Slot} {kind : Kind} (h : HasKind x kind) (i : Nat) (b : Byte) :
    x.readFailure i b = if kind = .blockRead ∧ i = 0 ∧ 32 ≤ b.toNat then some .lengthError else none := by
  simp only [Slot.readFailure, (ofCode_eq_some x kind).mpr h, Option.some.injEq]

/-- Settles O47: the bytes that the engine sends at each step, and the steps of each kind. -/
theorem sequencesOfTheKinds : Obligations.SequencesOfTheKinds := by
  refine ⟨fun s g n kind ha hkind => ⟨fun hp => ?_, engineByte_secondAddress ha, fun i => engineByte_writeByte ha⟩,
    fun x kind h hl => ⟨stepAfterAddress_eq h hl, firstDirection_eq h, fun i => stepAfterWrites_more, stepAfterWrites_last h hl,
      fun hk i b => lastRead_counted h hk b, ?_, ?_, ?_, readFailure_eq h⟩⟩
  · rw [engineByte_address ha hp, firstDirection_eq hkind]
    by_cases hread : kind = .read ∨ (kind = .blockRead ∧ (s.slot n).writeCount = 0)
    · rw [if_pos hread, if_pos rfl, if_pos hread]
    · rw [if_neg hread, if_neg (by simp), if_neg hread]
  · rintro rfl b; exact lastRead_poll h 0 b
  · rintro rfl b; exact lastRead_countByte h b
  · rintro rfl i b c more; exact lastRead_block h b

/-! ### The steps of the sequence -/

/-- The step of the sequence that an acknowledged byte leads to; the repeated start before a second address byte puts the context in ADDRESS
(R72, R151). -/
theorem goTo_eq {g : Seg} {pos : BytePos} {s : State} (h : pos = .secondAddress → ServesNothing s g) :
    goTo g pos s = s.updSeg g (fun x =>
      clocked (if pos = .secondAddress then { x with ctx := { phase := .address } } else x) { x.engine with pos := pos }) := by
  cases pos with
  | secondAddress =>
    have hserves : ServesNothing (stepEngine g (fun e => { e with pos := .secondAddress }) s) g := by
      simpa [ServesNothing, State.ctx, stepEngine] using h rfl
    exact (contextStart_serves hserves).trans (updSeg_updSeg s g _ _)
  | none | address | writeByte | readByte | closingStop => rfl

/-- A NACK that the engine receives leads to the closing stop (R70). -/
theorem meetFailure_eq (g : Seg) (f : Failure) (s : State) :
    meetFailure g f s = s.updSeg g (fun x => clocked x { x.engine with pos := .closingStop, met := some f }) := rfl

/-- The NACK of the last read byte leads to the closing stop (R71, R73). -/
theorem endRead_eq (g : Seg) (f : Option Failure) (s : State) :
    endRead g f s = s.updSeg g (fun x => clocked x { x.engine with pos := .closingStop, met := f, nackOut := true }) := rfl

/-- The sequence goes on for a slot that is not marked, and to the closing stop for every slot (R79). -/
theorem afterAck_goesOn {g : Seg} {n : SlotId} {pos : BytePos} {s : State} (h : (s.slot n).mark = .none ∨ pos = .closingStop) :
    afterAck g n pos s = goTo g pos s := by
  unfold afterAck
  split
  · rfl
  · rename_i hpos
    rw [(status_eq_none _).mpr (h.resolve_right hpos)]

/-- A mark is read at an acknowledge with which the sequence would go on (R79, R80). -/
theorem afterAck_marked {g : Seg} {n : SlotId} {pos : BytePos} {st : Status} {s : State} (hm : HasMark (s.slot n) st)
    (hpos : pos ≠ .closingStop) : afterAck g n pos s = closeByMark g n st false s := by
  unfold afterAck
  rw [if_neg hpos, (status_eq_some _ _).mpr hm]

/-- A mark that ends the transfer: the slot completes, and the engine closes the wire without one (R80). -/
theorem closeByMark_spec {s u : State} {n : SlotId} {k : TargetId} {g : Seg} {x : Slot} {e : TargetEntry} {y : Segment}
    (h : OnlyAttempt s u n k g x e y) (hk : s.targetIndex n = some k) (hnotify : x.notifyNow = (s.slot n).notifyNow)
    (htarget : x.target = (s.slot n).target) (hengine : y.engine = s.engine g) (st : Status) (nack : Bool) :
    Completes s (closeByMark g n st nack u) n x e st ∧ RaisesBesideReady s (closeByMark g n st nack u) [] ∧
      OnlySegment s (closeByMark g n st nack u) g (clocked y (closingEngine (s.engine g) .mark nack)) ∧
      closeByMark g n st nack u =
        { s with
          slots := (closeByMark g n st nack u).slots, targets := (closeByMark g n st nack u).targets
          cq := (closeByMark g n st nack u).cq, ev := (closeByMark g n st nack u).ev, segs := (closeByMark g n st nack u).segs } := by
  rw [← hengine]
  exact h.completes hk hnotify htarget st (fun y => clocked y (closingEngine y.engine .mark nack))

/-! ### The address bytes -/

/-- An address byte with its acknowledge, before the step it leads to (R70). -/
theorem exec_engineAddressByte {s : State} {g : Seg} {n : SlotId} {next : BytePos} (ack : Bool) (ho : s.live = true)
    (h : Sending s g n .address ∧ next = (s.slot n).stepAfterAddress ∨ Sending s g n .secondAddress ∧ next = .readByte 0) :
    exec (.engineAddressByte g ack) s = .next (if ack then afterAck g n next (learnAddressAck n (contextUnaddressed g s))
      else meetFailure g .nackAddress (contextUnaddressed g s)) := by
  refine congrArg Host.Outcome.next ((onWire_live _ ho).trans ?_)
  obtain ⟨hsend, rfl⟩ | ⟨hsend, rfl⟩ := h <;> simp only [(sending_eq s g n _).mpr hsend]

/-- The entry of a target that has acknowledged its address (R93). -/
def reached (e : TargetEntry) : TargetEntry :=
  { e with presence := if e.presence = .unknown ∨ e.presence = .absent then .present else e.presence }

theorem learnAddressAck_eq {s : State} {n : SlotId} {k : TargetId} (h : s.targetIndex n = some k) :
    learnAddressAck n s = s.updTarget k reached := by
  unfold learnAddressAck
  rw [updEntryOf_eq _ h]
  refine congrArg (s.updTarget k) (funext fun e => ?_)
  unfold reached
  split <;> rfl

/-- The address byte of the engine has been acknowledged, and the context is UNADDRESSED (R93, R151). -/
theorem addressAck_only {s : State} {g : Seg} {n : SlotId} {k : TargetId} (h : s.targetIndex n = some k) :
    OnlyAttempt s (learnAddressAck n (contextUnaddressed g s)) n k g (s.slot n) (reached (s.target k))
      { s.seg g with ctx := { phase := .unaddressed } } := by
  rw [learnAddressAck_eq (s := contextUnaddressed g s) h]
  exact ((OnlyAttempt.refl s n k g).updSeg _).updTarget reached

/-- Settles O48: an ACK of either address byte teaches the presence and goes on, a NACK leads to the closing stop. -/
theorem addressBytes : Obligations.AddressBytes := by
  intro s g n k kind next ho hkind hl hk h
  have hnext : next ≠ .secondAddress := by
    obtain ⟨-, rfl⟩ | ⟨-, rfl⟩ := h
    · exact stepAfterAddress_ne_secondAddress hkind hl
    · simp
  refine ⟨fun hm => ?_, ?_⟩
  · have hacked := addressAck_only (g := g) hk
    have hexec := exec_engineAddressByte true ho h
    rw [if_pos rfl, afterAck_goesOn (by rwa [hacked.slot.1]), goTo_eq fun heq => absurd heq hnext] at hexec
    simp only [if_neg hnext] at hexec
    have hgone := hacked.updSeg (fun x => clocked x { x.engine with pos := next })
    refine ⟨_, hexec, hgone.segment, hgone.entry, ?_⟩
    rw [learnAddressAck_eq (s := contextUnaddressed g s) hk]
    rfl
  · have hexec := exec_engineAddressByte false ho h
    rw [if_neg (by simp), meetFailure_eq, contextUnaddressed, State.updCtx, updSeg_updSeg] at hexec
    exact exec_updSeg hexec rfl

/-! ### The write and the read bytes -/

/-- A write byte with its acknowledge, before the step it leads to (R70, R72). -/
theorem exec_engineWriteByte {s : State} {g : Seg} {n : SlotId} {i : Nat} (ack : Bool) (ho : s.live = true)
    (h : Sending s g n (.writeByte i)) :
    exec (.engineWriteByte g ack) s = .next (if ack then afterAck g n ((s.slot n).stepAfterWrites (i + 1))
      (s.updSlot n (fun x => { x with bytesAccepted := x.bytesAccepted + 1 })) else meetFailure g .nackData s) := by
  refine congrArg Host.Outcome.next ((onWire_live _ ho).trans ?_)
  simp only [(sending_eq s g n _).mpr h]

/-- The last read byte of a sequence (R71, R73). -/
theorem exec_engineReadByte_last {s : State} {g : Seg} {n : SlotId} {i : Nat} {b : Byte} (ho : s.live = true)
    (h : Sending s g n (.readByte i)) (hl : (s.slot n).lastRead i b = true) :
    exec (.engineReadByte g b) s = .next (endRead g ((s.slot n).readFailure i b) (appendRead n b s)) := by
  refine congrArg Host.Outcome.next ((onWire_live _ ho).trans ?_)
  simp only [(sending_eq s g n _).mpr h, if_pos hl]

/-- A read byte of an unmarked slot that another follows (R71). -/
theorem exec_engineReadByte_more {s : State} {g : Seg} {n : SlotId} {i : Nat} {b : Byte} (ho : s.live = true)
    (h : Sending s g n (.readByte i)) (hl : (s.slot n).lastRead i b = false) (hm : (s.slot n).mark = .none) :
    exec (.engineReadByte g b) s = .next (goTo g (.readByte (i + 1)) (appendRead n b s)) := by
  refine congrArg Host.Outcome.next ((onWire_live _ ho).trans ?_)
  simp only [(sending_eq s g n _).mpr h, hl, (status_eq_none _).mpr hm, Bool.false_eq_true, if_false]

/-- A read byte of a marked slot that another would follow (R79, R80). -/
theorem exec_engineReadByte_marked {s : State} {g : Seg} {n : SlotId} {i : Nat} {b : Byte} {st : Status} (ho : s.live = true)
    (h : Sending s g n (.readByte i)) (hl : (s.slot n).lastRead i b = false) (hm : HasMark (s.slot n) st) :
    exec (.engineReadByte g b) s = .next (closeByMark g n st true (appendRead n b s)) := by
  refine congrArg Host.Outcome.next ((onWire_live _ ho).trans ?_)
  simp only [(sending_eq s g n _).mpr h, hl, (status_eq_some _ _).mpr hm, Bool.false_eq_true, if_false]

/-- Settles O49: the acknowledges of write bytes, and the read bytes with the acknowledge that the engine gives them. -/
theorem dataBytes : Obligations.DataBytes := by
  refine ⟨fun s g n i next ho hsend hnext hctx => ⟨fun hm => ?_, ?_⟩, fun s g n i b ho hsend => ⟨fun hl => ?_, fun hl hm => ?_⟩⟩
  · have hexec := exec_engineWriteByte true ho hsend
    rw [if_pos rfl, ← hnext, afterAck_goesOn (by rwa [updSlot_slot, if_pos rfl]), goTo_eq (s := s.updSlot n _) fun _ => hctx]
      at hexec
    exact exec_updSlot_updSeg hexec rfl rfl
  · have hexec := exec_engineWriteByte false ho hsend
    rw [if_neg (by simp), meetFailure_eq] at hexec
    exact exec_updSeg hexec rfl
  · have hexec := exec_engineReadByte_last ho hsend hl
    rw [endRead_eq, appendRead] at hexec
    exact exec_updSlot_updSeg hexec rfl rfl
  · have hexec := exec_engineReadByte_more ho hsend hl hm
    rw [goTo_eq (by simp), appendRead] at hexec
    exact exec_updSlot_updSeg hexec rfl rfl

/-- Settles O50: at each kind of acknowledge the mark is read on the slot as the byte has left it. -/
theorem marksEndTheTransfer : Obligations.MarksEndTheTransfer := by
  intro i s g n k st x e y nack ho hm hk h
  obtain ⟨j, rfl, hsend, hpos, rfl, rfl, rfl, rfl⟩ | ⟨j, b, rfl, hsend, hlast, rfl, rfl, rfl, rfl⟩ | ⟨rfl, hsend, rfl, rfl, rfl, rfl⟩ := h
  · have hcounted := (OnlyAttempt.refl s n k g).updSlot (fun x => { x with bytesAccepted := x.bytesAccepted + 1 })
    refine ⟨_, ?_, closeByMark_spec hcounted hk rfl rfl rfl st false⟩
    rw [exec_engineWriteByte true ho hsend, if_pos rfl, afterAck_marked (by rwa [hcounted.slot.1]) hpos]
  · exact ⟨_, exec_engineReadByte_marked ho hsend hlast hm,
      closeByMark_spec ((OnlyAttempt.refl s n k g).updSlot (fun x => { x with readData := x.readData ++ [b] })) hk rfl rfl rfl st true⟩
  · have hacked := addressAck_only (g := g) hk
    refine ⟨_, ?_, closeByMark_spec hacked hk rfl rfl rfl st false⟩
    obtain ⟨hsend, hpos⟩ | hsend := hsend
    · rw [exec_engineAddressByte true ho (.inl ⟨hsend, rfl⟩), if_pos rfl, afterAck_marked (by rwa [hacked.slot.1]) hpos]
    · rw [exec_engineAddressByte true ho (.inr ⟨hsend, rfl⟩), if_pos rfl, afterAck_marked (by rwa [hacked.slot.1]) (by simp)]

end Sys2Proof.Machine
end

section
/-! SUPPORT. The ends of a transfer: the closing stop with its outcome, a lost bit, the stop that fails, and the stops that an engine sends without a
slot (R75, R76, R80, R85, R88). -/

namespace Sys2Proof.Machine

open Sys2Proof.Claims

/-! ### The closing stop -/

/-- A stop of the engine rises on a segment whose context serves no mailbox (R75). -/
theorem stopRises_eq {g : Seg} {s : State} (h : ServesNothing s g) : stopRises g s = s.updSeg g stopped := by
  have hserves : ServesNothing (s.updSeg g (fun x => { x with known := false, sclHigh := true, sdaHigh := true })) g := by
    simpa [ServesNothing, State.ctx] using h
  exact (contextStop_serves hserves).trans (updSeg_updSeg s g _ _)

/-- The closing stop of a sequence that has met a failure (R75, R82). -/
theorem exec_closingStop_failed {s : State} {g : Seg} {n : SlotId} {f : Failure} (ho : s.live = true) (h : Sending s g n .closingStop)
    (hf : (s.engine g).met = some f) : exec (.closingStop g) s = .next (evaluateFailure g f (stopRises g s)) := by
  refine congrArg Host.Outcome.next ((onWire_live _ ho).trans ?_)
  simp only [(sending_eq s g n _).mpr h, hf]

/-- The closing stop of a sequence that has met none (R76). -/
theorem exec_closingStop_succeeded {s : State} {g : Seg} {n : SlotId} (ho : s.live = true) (h : Sending s g n .closingStop)
    (hf : (s.engine g).met = none) : exec (.closingStop g) s = .next (succeed g n (stopRises g s)) := by
  refine congrArg Host.Outcome.next ((onWire_live _ ho).trans ?_)
  simp only [(sending_eq s g n _).mpr h, hf]

/-- The masked poll byte of the last read equals the poll match (R27). -/
abbrev PollMatched (x : Slot) : Prop := x.readData.headD 0 &&& x.pollMask = x.pollMatch

/-- A poll read that does not match has been counted (R103). -/
def pollCounted (x : Slot) : Slot := { x with pollsUsed := x.pollsUsed + 1 }

/-- The target of a success or of a poll read that does not match (R94, R103). -/
def credited (e : TargetEntry) : TargetEntry := { e with presence := .present, failureCount := 0 }

/-- A success that is not a poll to be repeated ends the slot OK (R76, R103). -/
theorem succeed_ok {g : Seg} {n : SlotId} {s : State} (h : ¬ HasKind (s.slot n) .poll ∨ PollMatched (s.slot n)) :
    succeed g n s = finishSlot g n .ok (creditTarget n s) := by
  have hslot : (creditTarget n s).slot n = s.slot n := updEntryOf_slot s n _ n
  unfold succeed
  dsimp only
  split
  · rename_i hpoll
    have hmatched : ((creditTarget n s).slot n).pollMatches = true := by
      rw [hslot]; exact beq_iff_eq.mpr (h.resolve_left (not_not_intro ((ofCode_eq_some _ _).mp hpoll)))
    exact if_pos hmatched
  · rfl

/-- A poll read that does not match is counted, and is the last one or starts the poll wait (R77, R103, R106). -/
theorem succeed_mismatch {g : Seg} {n : SlotId} {s : State} (hk : HasKind (s.slot n) .poll) (h : ¬ PollMatched (s.slot n)) :
    succeed g n s =
      if (s.slot n).pollsUsed + 1 < (s.slot n).pollLimit.toNat then enterPollWait g n ((creditTarget n s).updSlot n pollCounted)
      else finishSlot g n .pollExpired ((creditTarget n s).updSlot n pollCounted) := by
  have hslot : (creditTarget n s).slot n = s.slot n := updEntryOf_slot s n _ n
  have hmatched : ¬ ((creditTarget n s).slot n).pollMatches = true := by rw [hslot]; exact fun hm => h (beq_iff_eq.mp hm)
  have hcounted : ((creditTarget n s).updSlot n pollCounted).slot n = pollCounted (s.slot n) := by
    rw [updSlot_slot, if_pos rfl, hslot]
  have hcompare : comparePoll g n (creditTarget n s) =
      if (((creditTarget n s).updSlot n pollCounted).slot n).pollLimit.toNat ≤
          (((creditTarget n s).updSlot n pollCounted).slot n).pollsUsed then
        finishSlot g n .pollExpired ((creditTarget n s).updSlot n pollCounted)
      else enterPollWait g n ((creditTarget n s).updSlot n pollCounted) := if_neg hmatched
  rw [show succeed g n s = comparePoll g n (creditTarget n s) from if_pos ((ofCode_eq_some _ _).mpr hk), hcompare, hcounted]
  by_cases hbelow : (s.slot n).pollsUsed + 1 < (s.slot n).pollLimit.toNat
  · rw [if_pos hbelow]; exact if_neg (Nat.not_le.mpr hbelow)
  · rw [if_neg hbelow]; exact if_pos (Nat.not_lt.mp hbelow)

/-- The entry to POLL_WAIT reads the mark (R77, R79). -/
theorem enterPollWait_marked {g : Seg} {n : SlotId} {s : State} {st : Status} (h : HasMark (s.slot n) st) :
    enterPollWait g n s = finishSlot g n st s := by
  unfold enterPollWait
  rw [(status_eq_some _ _).mpr h]

theorem enterPollWait_waits {g : Seg} {n : SlotId} {s : State} (h : (s.slot n).mark = .none) :
    enterPollWait g n s = s.updSeg g (fun x =>
      { x with engine := waitEngine .pollWait none (some ((s.slot n).pollInterval.toNat * Config.unit)) x.engine }) := by
  unfold enterPollWait
  rw [(status_eq_none _).mpr h]

/-- At a closing stop that rises without a failure the target is credited, before the slot is looked at (R94). -/
theorem creditTarget_stopRises {s : State} {g : Seg} {n : SlotId} {k : TargetId} (hk : s.targetIndex n = some k)
    (hctx : ServesNothing s g) :
    OnlyAttempt s (creditTarget n (stopRises g s)) n k g (s.slot n) (credited (s.target k)) (stopped (s.seg g)) := by
  rw [stopRises_eq hctx, creditTarget, updEntryOf_eq (s := s.updSeg g stopped) _ hk]
  exact ((OnlyAttempt.refl s n k g).updSeg stopped).updTarget credited

/-- Settles O51: the success is credited; then the slot completes, or an unmarked POLL below its limit waits for its next read. -/
theorem closingStopsOfSuccess : Obligations.ClosingStopsOfSuccess := by
  intro s g n k ho hsend hmet hk hctx credit matched counted below
  have hcredited := creditTarget_stopRises hk hctx
  have hcounted := hcredited.updSlot pollCounted
  have hslot : (stopRises g s).slot n = s.slot n := by rw [stopRises_eq hctx]; rfl
  have hstop := exec_closingStop_succeeded ho hsend hmet
  by_cases hok : ¬ HasKind (s.slot n) .poll ∨ matched
  · rw [succeed_ok (by rwa [hslot])] at hstop
    obtain ⟨hcompletes, hraises, hsegment, hframe⟩ := hcredited.completes hk rfl rfl .ok (fun x => { x with engine := {} })
    have hno : HasKind (s.slot n) .poll → ¬ matched → False := fun hp hm => hok.elim (· hp) hm
    exact ⟨_, hstop, fun _ => hcompletes, fun hp hm => (hno hp hm).elim, fun _ hp hm => (hno hp hm).elim, fun _ => hsegment,
      fun hp hm => (hno hp hm).elim, hraises, hframe⟩
  obtain ⟨hpoll, hmiss⟩ := not_or.mp hok
  rw [succeed_mismatch (by rw [hslot]; exact not_not.mp hpoll) (by rwa [hslot]), hslot] at hstop
  by_cases hbelow : below
  · rw [if_pos hbelow] at hstop
    by_cases hm : (s.slot n).mark = .none
    · rw [enterPollWait_waits (by rw [hcounted.slot.1]; exact hm), hcounted.slot.1] at hstop
      have hwaits := hcounted.updSeg (fun x => { x with
        engine := waitEngine .pollWait none (some ((s.slot n).pollInterval.toNat * Config.unit)) x.engine })
      obtain ⟨hcq, hev, hraises, hframe⟩ := hwaits.keeps
      refine ⟨_, hstop, fun h => absurd h hok, fun _ _ h => absurd hbelow h, fun st _ _ _ h => absurd h (not_hasMark hm), fun h => ?_,
        fun _ _ _ _ => ⟨hwaits.slot, hwaits.entry, hcq, hev, ?_⟩, hraises, hframe⟩
      · exact absurd h (by simp [hpoll, hmiss, hbelow, hm])
      · obtain ⟨-, -, hactive, -⟩ := hsend
        rw [← hactive]
        exact hwaits.segment
    · obtain ⟨st, hst⟩ := exists_hasMark hm
      rw [enterPollWait_marked (by rw [hcounted.slot.1]; exact hst)] at hstop
      obtain ⟨hcompletes, hraises, hsegment, hframe⟩ := hcounted.completes hk rfl rfl st (fun x => { x with engine := {} })
      refine ⟨_, hstop, fun h => absurd h hok, fun _ _ h => absurd hbelow h, fun st' _ _ _ hst' => ?_, fun _ => hsegment,
        fun _ _ _ h => absurd h hm, hraises, hframe⟩
      obtain rfl := hasMark_unique hst hst'
      exact hcompletes
  · rw [if_neg hbelow] at hstop
    obtain ⟨hcompletes, hraises, hsegment, hframe⟩ := hcounted.completes hk rfl rfl .pollExpired (fun x => { x with engine := {} })
    exact ⟨_, hstop, fun h => absurd h hok, fun _ _ _ => hcompletes, fun _ _ _ h => absurd h hbelow, fun _ => hsegment,
      fun _ _ h => absurd h hbelow, hraises, hframe⟩

/-! ### A lost bit -/

/-- A close without a slot is not an attempt (R80, R88). -/
theorem sending_none {s : State} {g : Seg} (h : (s.engine g).closing ≠ .none) : (s.engine g).sending = none := if_neg fun hs => h hs.2

/-- A byte that the engine sends loses arbitration in a 1 bit (R85). -/
theorem arbitrates_byte {s : State} {g : Seg} {n : SlotId} {pos : BytePos} {b : Byte} (h : Sending s g n pos)
    (hb : s.engineByte g = some b) : s.arbitrates g = true ↔ b ≠ 0 := by
  unfold State.arbitrates
  rw [(sending_eq s g n pos).mpr h, hb]
  exact bne_iff_ne

/-- The NACK of a read byte loses arbitration before the closing stop (R85). -/
theorem arbitrates_closingStop {s : State} {g : Seg} {n : SlotId} (h : Sending s g n .closingStop) :
    s.arbitrates g = (s.engine g).nackOut := by
  unfold State.arbitrates
  have ⟨_, _, _, hp⟩ := h
  rw [(sending_eq s g n _).mpr h, engineByte_none (.inr hp)]

/-- A read byte is another's (R71, R85). -/
theorem arbitrates_readByte {s : State} {g : Seg} {n : SlotId} {i : Nat} (h : Sending s g n (.readByte i)) : s.arbitrates g = false := by
  unfold State.arbitrates
  have ⟨_, _, _, hp⟩ := h
  rw [(sending_eq s g n _).mpr h, engineByte_none (.inl ⟨i, hp⟩)]

theorem arbitrates_closing {s : State} {g : Seg} (h : (s.engine g).closing ≠ .none) : s.arbitrates g = false := by
  unfold State.arbitrates
  rw [sending_none h]

/-- An address byte holds a 1 bit when its address or its direction bit does. -/
theorem addressByte_ne_zero {a : BitVec 7} {d : BitVec 1} (h : a ≠ 0 ∨ d ≠ 0) : a ++ d ≠ 0 := by
  intro hzero
  have hbits : a.toNat <<< 1 ||| d.toNat = 0 := by rw [← BitVec.toNat_append, hzero]; rfl
  obtain ⟨ha, hd⟩ := Nat.or_eq_zero_iff.mp hbits
  obtain h | h := h
  · exact h (BitVec.eq_of_toNat_eq (by simpa using ha))
  · exact h (BitVec.eq_of_toNat_eq hd)

/-- A 1 bit in an address byte can be lost; the second one always holds the read bit (R72, R85). -/
theorem arbitrates_address {s : State} {g : Seg} {n : SlotId} (h : Sending s g n .address)
    (hb : (s.engine g).address ≠ 0 ∨ (s.slot n).firstDirection = .read) : s.arbitrates g = true := by
  have ⟨_, _, ha, hp⟩ := h
  refine (arbitrates_byte h (engineByte_address ha hp)).mpr (addressByte_ne_zero (hb.imp_right fun hread => ?_))
  rw [if_pos hread]
  decide

theorem arbitrates_secondAddress {s : State} {g : Seg} {n : SlotId} (h : Sending s g n .secondAddress) : s.arbitrates g = true := by
  have ⟨_, _, ha, hp⟩ := h
  exact (arbitrates_byte h (engineByte_secondAddress ha hp)).mpr (addressByte_ne_zero (.inr (by decide)))

theorem arbitrates_writeByte {s : State} {g : Seg} {n : SlotId} {i : Nat} (h : Sending s g n (.writeByte i)) :
    s.arbitrates g = true ↔ byteAt (s.slot n).writeList i ≠ 0 := by
  have ⟨_, _, ha, hp⟩ := h
  exact arbitrates_byte h (engineByte_writeByte ha hp)

/-- The slot of the attempt that is on the wire (R61). -/
theorem active_of_sends {s : State} {g : Seg} {n : SlotId} {pos : BytePos} (h : Sending s g n pos) :
    (s.engine g).active = some n := by
  obtain ⟨-, -, ha, -⟩ := h
  exact ha

/-- A bit that an attempt loses ends it ARB_LOST, with the levels that were sampled (R85). -/
theorem exec_arbitrationLost {s : State} {g : Seg} (ho : s.live = true) (h : s.arbitrates g = true) :
    exec (.arbitrationLost g) s = .next (evaluateFailure g .arbLost (s.updSeg g dataLow)) :=
  congrArg Host.Outcome.next ((onWire_live _ ho).trans (if_pos h))

/-- Outside the bits that the engine leaves high no bit is lost (R85). -/
theorem exec_arbitrationLost_not {s : State} {g : Seg} {n : SlotId} {pos : BytePos} (ho : s.live = true) (hsend : Sending s g n pos)
    (h : s.arbitrates g = false) : exec (.arbitrationLost g) s = .next s := by
  obtain ⟨-, hc, -⟩ := hsend
  refine congrArg Host.Outcome.next ((onWire_live _ ho).trans ?_)
  rw [if_neg (by simp [h]), if_neg (by simp [hc])]

/-! ### The stop of a recovery -/

/-- The segment of a recovery that has freed the line (R84, R138). -/
def upAgain (x : Segment) : Segment := { x with state := .up, downMode := .none, known := false, sclHigh := true, sdaHigh := true }

/-- The segment is UP again with SEGn_CHANGE, before the engine is looked at (R138). -/
theorem enterUp_eq (g : Seg) (s : State) :
    enterState g .up .none (s.updSeg g (fun x => { x with known := false, sclHigh := true, sdaHigh := true })) =
      (s.updSeg g upAgain).raise (.segChange g) :=
  congrArg (fun u => State.raise u (.segChange g)) (updSeg_updSeg s g _ _)

theorem upAgain_engine (g : Seg) (s : State) : ((s.updSeg g upAgain).raise (.segChange g)).engine g = s.engine g := by
  simp [State.engine, upAgain]

/-- A recovery that has freed the line evaluates BUS_STUCK for its slot (R84). -/
theorem recovered_active {s : State} {g : Seg} {n : SlotId} (h : (s.engine g).active = some n) :
    recovered g s = evaluateFailure g .busStuck ((s.updSeg g upAgain).raise (.segChange g)) := by
  unfold recovered
  simp only [enterUp_eq, upAgain_engine, h]

/-- A recovery without a slot leaves the engine IDLE (R84). -/
theorem recovered_slotless {s : State} {g : Seg} (h : (s.engine g).active = none) :
    recovered g s = (s.updSeg g (fun x => { upAgain x with engine := {} })).raise (.segChange g) := by
  unfold recovered
  simp only [enterUp_eq, upAgain_engine, h]
  exact congrArg (fun u => State.raise u (.segChange g)) (updSeg_updSeg s g upAgain (fun x => { x with engine := {} }))

/-- The stop of a recovery rises (R84). -/
theorem exec_recoveryStop_rises {s : State} {g : Seg} (ho : s.live = true) (hr : (s.engine g).state = .recovery)
    (hs : (s.engine g).recoveryStop = true) : exec (.recoveryStop g true) s = .next (recovered g s) :=
  congrArg Host.Outcome.next (onWire_taken (f := fun u => if true = true then recovered g u else _) ho ⟨hr, hs⟩)

/-- Settles O52: each failure goes to the evaluation on the segment as its row leaves it. -/
theorem failuresAreEvaluated : Obligations.FailuresAreEvaluated := by
  intro s g n k ho hk
  refine ⟨fun f hsend hmet hctx => ?_, fun i h => ?_, fun i h => ?_, fun hr hs ha => ?_⟩
  · have hstop := exec_closingStop_failed ho hsend hmet
    rw [stopRises_eq hctx] at hstop
    exact ⟨_, hstop, evaluateFailure_updSeg f hk (active_of_sends hsend) rfl rfl⟩
  · have hlost : s.arbitrates g = true ∧ (s.engine g).active = some n := by
      obtain ⟨hsend, hb⟩ | hsend | ⟨hsend, hb⟩ | ⟨hsend, hb⟩ := h
      · exact ⟨arbitrates_address hsend hb, active_of_sends hsend⟩
      · exact ⟨arbitrates_secondAddress hsend, active_of_sends hsend⟩
      · exact ⟨(arbitrates_writeByte hsend).mpr hb, active_of_sends hsend⟩
      · exact ⟨(arbitrates_closingStop hsend).trans hb, active_of_sends hsend⟩
    obtain ⟨hbit, hactive⟩ := hlost
    exact ⟨_, exec_arbitrationLost ho hbit, evaluateFailure_updSeg .arbLost hk hactive rfl rfl⟩
  · obtain ⟨hsend, hb⟩ | hsend | ⟨hsend, hb⟩ := h
    · exact exec_arbitrationLost_not ho hsend (Bool.eq_false_iff.mpr fun hbit => (arbitrates_writeByte hsend).mp hbit hb)
    · exact exec_arbitrationLost_not ho hsend (arbitrates_readByte hsend)
    · exact exec_arbitrationLost_not ho hsend ((arbitrates_closingStop hsend).trans hb)
  · have hstop := exec_recoveryStop_rises ho hr hs
    rw [recovered_active ha] at hstop
    exact ⟨_, hstop, evaluateFailure_after .busStuck hk ha (onlySegment_congr (onlySegment_updSeg s g upAgain) rfl rfl) rfl rfl
      (raises_updSeg_raise s g upAgain _) rfl (by simp)⟩

/-! ### A stop that fails, and a stuck bus -/

theorem atStop_attempt {s : State} {g : Seg} {n : SlotId} (h : Sending s g n .closingStop ∨ Sending s g n .secondAddress) :
    (s.engine g).atStop = true := by
  unfold Engine.atStop
  obtain ⟨ht, hc, ha, hp⟩ | ⟨ht, hc, ha, hp⟩ := h <;> rw [ht, hc, ha, hp]

theorem atStop_mark {e : Engine} (ht : e.state = .transfer) (hc : e.closing = .mark) : e.atStop = true := by
  unfold Engine.atStop
  rw [ht, hc]

theorem atStop_offline {e : Engine} (hc : e.closing = .offline) : e.atStop = false := by
  unfold Engine.atStop
  rw [hc]
  cases e.state <;> rfl

/-- A stop or a repeated start of an attempt, or the stop after a mark, fails (R75, R80). -/
theorem exec_stopFailed_recovers {s : State} {g : Seg} (ho : s.live = true) (h : (s.engine g).atStop = true) :
    exec (.stopFailed g) s = .next (enterRecovery g s) :=
  congrArg Host.Outcome.next ((onWire_live _ ho).trans (if_pos h))

/-- Settles O53: a stuck bus in WAIT_FREE and each stop that fails enter the recovery. -/
theorem recoveryIsEntered : Obligations.RecoveryIsEntered := by
  refine ⟨fun s g hfree => congrArg Host.Outcome.next (onWire_not_taken fun ⟨_, _, hstuck⟩ => hfree ((busStuck_now _).mp hstuck)),
    fun i s g ho hup h => ⟨enterRecovery g s, ?_, enterRecovery_spec g s⟩⟩
  obtain ⟨rfl, hwait, hstuck⟩ | ⟨n, rfl, hsend⟩ | ⟨rfl, ht, hc⟩ := h
  · exact congrArg Host.Outcome.next (onWire_taken ho ⟨hwait, hup, (busStuck_now _).mpr hstuck⟩)
  · exact exec_stopFailed_recovers ho (atStop_attempt hsend)
  · exact exec_stopFailed_recovers ho (atStop_mark ht hc)

/-! ### The stops without a slot -/

/-- The stop after OFFLINE ends: one change of the segment (R88). -/
theorem endOfflineClose_eq (g : Seg) (rose : Bool) (s : State) :
    endOfflineClose g rose s =
      s.updSeg g (fun x => { x with gate := .released, known := false, sdaHigh := rose, engine := {} }) := by
  unfold endOfflineClose releaseLines
  rw [updSeg_updSeg, idleEngine_eq, State.updEngine, updSeg_updSeg]

/-- The stop after OFFLINE ends with its own row or as one that fails (R88). -/
theorem exec_offlineClose {i : Instr} {s : State} {g : Seg} (ho : s.live = true) (ht : (s.engine g).state = .transfer)
    (hc : (s.engine g).closing = .offline) (hi : i = .offlineCloseStop g ∨ i = .stopFailed g) :
    exec i s = .next (endOfflineClose g (decide (i = .offlineCloseStop g)) s) := by
  obtain rfl | rfl := hi
  · rw [decide_eq_true rfl]
    exact congrArg Host.Outcome.next (onWire_taken ho ⟨ht, hc⟩)
  · rw [decide_eq_false (by simp)]
    refine congrArg Host.Outcome.next ((onWire_live _ ho).trans ?_)
    rw [if_neg (by rw [atStop_offline hc]; simp), if_pos ⟨ht, hc⟩]

/-- The NACK before the stop after a mark is lost, which ends the close (R80, R85). -/
theorem exec_arbitrationLost_mark {s : State} {g : Seg} (ho : s.live = true) (ht : (s.engine g).state = .transfer)
    (hc : (s.engine g).closing = .mark) (hn : (s.engine g).nackOut = true) :
    exec (.arbitrationLost g) s = .next (idleEngine g (s.updSeg g dataLow)) := by
  refine congrArg Host.Outcome.next ((onWire_live _ ho).trans ?_)
  rw [if_neg (by rw [arbitrates_closing (by simp [hc])]; simp), if_pos ⟨ht, hc, hn⟩, sampleLow_eq]

/-- Settles O54: each close without a slot is one change of the segment, with the engine IDLE. -/
theorem slotlessClosesEnd : Obligations.SlotlessClosesEnd := by
  intro s g ho ht
  refine ⟨fun hc hctx => ?_, fun hc hn _ => ?_, fun i hc hi => ?_⟩
  · have hstop : exec (.markCloseStop g) s = .next (idleEngine g (stopRises g s)) :=
      congrArg Host.Outcome.next (onWire_taken ho ⟨ht, hc⟩)
    rw [stopRises_eq hctx, idleEngine_eq, State.updEngine, updSeg_updSeg] at hstop
    exact exec_updSeg hstop rfl
  · have hlost := exec_arbitrationLost_mark ho ht hc hn
    rw [idleEngine_eq, State.updEngine, updSeg_updSeg] at hlost
    exact exec_updSeg hlost rfl
  · have hstop := exec_offlineClose ho ht hc hi
    rw [endOfflineClose_eq] at hstop
    exact exec_updSeg hstop rfl

end Sys2Proof.Machine
end

section
/-! SUPPORT. A held clock, the pulses and stops of a recovery, the departures to FAULTED, and the reports of the lines (R62 to R64, sections 4.6
and 4.7, R139). -/

namespace Sys2Proof.Machine

open Sys2Proof.Claims

/-! ### Held clocks and pulses -/

/-- The stretch timer expires while it runs (R81). -/
theorem exec_stretchTimerExpiry {s : State} {g : Seg} (ho : s.live = true) (ht : (s.engine g).state = .transfer)
    (hs : (s.engine g).stretchTimer.isSome = true) :
    exec (.stretchTimerExpiry g) s = .next (s.updSeg g (fun x => { x with
      sclHigh := false
      engine := { x.engine with
        state := .releaseWait, met := x.engine.active.map (fun _ => .stretchTimeout), nackOut := false
        stretchTimer := none, releaseTimer := some Config.clockReleaseLimit } })) :=
  congrArg Host.Outcome.next (onWire_taken ho ⟨ht, hs⟩)

/-- The clock seen high ends RELEASE_WAIT (R82). -/
theorem exec_clockReleased {s : State} {g : Seg} (ho : s.live = true) (hw : (s.engine g).state = .releaseWait) :
    exec (.clockReleased g) s = .next (s.updSeg g (fun x => { x with
      sclHigh := true, engine := { x.engine with state := .transfer, pos := .closingStop, releaseTimer := none } })) :=
  congrArg Host.Outcome.next (onWire_taken ho hw)

/-- A segment after a pulse of its recovery, with the data line sampled (R83). -/
def pulsed (high : Bool) (x : Segment) : Segment :=
  { x with
    sclHigh := true, sdaHigh := high
    engine := { x.engine with pulses := x.engine.pulses + 1, recoveryStop := high, releaseTimer := none } }

/-- A segment after a stop of its recovery that has failed (R83). -/
def stopMissed (x : Segment) : Segment :=
  { x with sdaHigh := false, engine := { x.engine with recoveryStop := false, releaseTimer := none } }

/-- A pulse of a recovery: after the 9th with the data line low it has failed (R83, R84). -/
theorem exec_recoveryPulse {s : State} {g : Seg} (high : Bool) (ho : s.live = true) (hr : (s.engine g).state = .recovery)
    (hs : (s.engine g).recoveryStop = false) :
    exec (.recoveryPulse g high) s = .next (if high = false ∧ 9 ≤ (s.engine g).pulses + 1 then enterFaulted g (s.updSeg g (pulsed high))
      else s.updSeg g (pulsed high)) := by
  refine congrArg Host.Outcome.next (((onWire_live _ ho).trans (if_pos ⟨hr, hs⟩)).trans ?_)
  simp only [updSeg_engine, if_true]
  rfl

/-- A stop of a recovery that fails: after the 9th pulse the recovery has failed (R83, R84). -/
theorem exec_recoveryStop_fails {s : State} {g : Seg} (ho : s.live = true) (hr : (s.engine g).state = .recovery)
    (hs : (s.engine g).recoveryStop = true) :
    exec (.recoveryStop g false) s = .next (if 9 ≤ (s.engine g).pulses then enterFaulted g (s.updSeg g stopMissed)
      else s.updSeg g stopMissed) := by
  refine congrArg Host.Outcome.next (((onWire_live _ ho).trans (if_pos ⟨hr, hs⟩)).trans ?_)
  simp only [updSeg_engine, if_true, Bool.false_eq_true, if_false]
  rfl

/-- Settles O55: the rows of a held clock and of a recovery that goes on are one change of the segment each. -/
theorem heldClocksAndPulses : Obligations.HeldClocksAndPulses := by
  refine ⟨fun s g ho => ⟨fun hs => ?_, fun ht _ hs => ?_, fun hw => exec_updSeg (exec_clockReleased ho hw) rfl⟩,
    fun s g ho hr => ⟨fun high hs hlow => ?_, fun hs hp => ?_, fun hs ha => ?_⟩⟩
  · exact congrArg Host.Outcome.next (onWire_not_taken fun ⟨_, htimer⟩ => by rw [hs] at htimer; cases htimer)
  · refine exec_updSeg (exec_stretchTimerExpiry ho ht hs) ?_
    have hmet : (s.engine g).active.map (fun _ => Failure.stretchTimeout) =
        if (s.engine g).active = none then none else some .stretchTimeout := by
      cases (s.engine g).active <;> rfl
    rw [← hmet]
    rfl
  · have hpulse := exec_recoveryPulse high ho hr hs
    rw [if_neg (by rintro ⟨rfl, h9⟩; simp at hlow; omega)] at hpulse
    exact exec_updSeg hpulse rfl
  · have hstop := exec_recoveryStop_fails ho hr hs
    rw [if_neg (Nat.not_le.mpr hp)] at hstop
    exact exec_updSeg hstop rfl
  · have hstop := exec_recoveryStop_rises ho hr hs
    rw [recovered_slotless ha] at hstop
    exact ⟨_, hstop, raises_updSeg_raise s g _ _,
      onlySegment_congr (onlySegment_updSeg s g (fun x => { upAgain x with engine := {} })) rfl rfl, rfl⟩

/-! ### The departures to FAULTED -/

/-- The departure to FAULTED after a change of the segment that leaves its active slot and its context (R139). -/
theorem enterFaulted_updSeg {s : State} {g : Seg} {f : Segment → Segment} {x : Segment}
    (hactive : (f (s.seg g)).engine.active = (s.engine g).active) (hctx : (f (s.seg g)).ctx = s.ctx g)
    (hx : outOfService (f (s.seg g)) .faulted .flushing = outOfService x .faulted .flushing) :
    Departs s (enterFaulted g (s.updSeg g f)) g (outOfService x .faulted .flushing) .segmentFault [.segChange g] ∧
      enterFaulted g (s.updSeg g f) =
        { s with
          ev := (enterFaulted g (s.updSeg g f)).ev, cq := (enterFaulted g (s.updSeg g f)).cq
          slots := (enterFaulted g (s.updSeg g f)).slots, targets := (enterFaulted g (s.updSeg g f)).targets
          segs := (enterFaulted g (s.updSeg g f)).segs, boxes := (enterFaulted g (s.updSeg g f)).boxes } := by
  obtain ⟨⟨hends, hcontext, hflags, hsegment⟩, hframe⟩ := depart_spec g .faulted .flushing .segmentFault (s.updSeg g f)
  have hchange := onlySegment_updSeg s g f
  rw [hchange.1, hx] at hsegment
  have hfield := fun {α : Type} (p : State → α) => congrArg p hframe
  refine ⟨⟨endsActive_congr hends ?_ rfl rfl rfl rfl rfl rfl rfl rfl, endsContext_congr hcontext ?_ rfl rfl rfl rfl, hflags,
    onlySegment_trans hchange hsegment⟩, ?_⟩
  · rw [State.engine, State.engine, hchange.1]; exact hactive.symm
  · rw [State.ctx, State.ctx, hchange.1]; exact hctx.symm
  · exact state_ext (hfield State.win) rfl rfl rfl rfl rfl (hfield State.entries) rfl (hfield State.rstHeld) (hfield State.pending)

/-- Settles O56: the release timer and the two failures of a recovery after its 9th pulse all depart to FAULTED. -/
theorem faultsDepart : Obligations.FaultsDepart := by
  refine ⟨fun s g hs => congrArg Host.Outcome.next (onWire_not_taken fun ⟨_, htimer⟩ => by rw [hs] at htimer; cases htimer),
    fun i s g x ho h => ?_⟩
  obtain ⟨rfl, hw, hs, rfl⟩ | ⟨rfl, hr, hs, hp, rfl⟩ | ⟨rfl, hr, hs, hp, rfl⟩ := h
  · have hexpiry : exec (.releaseTimerExpiry g) s = .next (enterFaulted g (s.updSeg g (fun x => { x with sclHigh := false }))) :=
      congrArg Host.Outcome.next (onWire_taken ho ⟨hw, hs⟩)
    exact ⟨_, hexpiry, enterFaulted_updSeg rfl rfl rfl⟩
  · have hpulse := exec_recoveryPulse false ho hr hs
    rw [if_pos ⟨rfl, Nat.succ_le_succ hp⟩] at hpulse
    exact ⟨_, hpulse, enterFaulted_updSeg rfl rfl rfl⟩
  · have hstop := exec_recoveryStop_fails ho hr hs
    rw [if_pos hp] at hstop
    exact ⟨_, hstop, enterFaulted_updSeg rfl rfl rfl⟩

/-! ### The lines -/

theorem watched_iff (x : Segment) : x.watched = true ↔ x.state = .up ∨ x.state = .recovering := by
  cases h : x.state <;> simp [Segment.watched, h]

theorem controls_eq_false_iff (e : Engine) : e.controls = false ↔ e.state ≠ .transfer ∧ e.state ≠ .releaseWait := by
  cases h : e.state <;> simp [Engine.controls, h]

/-- A change of the data line that is a start or a stop (R62, R64, R161). -/
theorem dataEdge_iff (x : Segment) (high : Bool) :
    x.dataEdge .data high = true ↔ (x.state = .up ∨ x.state = .recovering) ∧ x.engine.state ≠ .transfer ∧
      x.engine.state ≠ .releaseWait ∧ x.ctx.phase ≠ .holding ∧ x.sclHigh = true ∧ x.sdaHigh ≠ high := by
  simp only [Segment.dataEdge, Bool.and_eq_true, watched_iff, Bool.not_eq_true', controls_eq_false_iff, decide_eq_true_iff, bne_iff_ne,
    and_assoc, ne_eq]

/-- A report that is no start or stop is recorded (R64). -/
theorem exec_lineChange {s : State} {g : Seg} {line : Line} {high : Bool} (h : ¬ (s.live = true ∧ (s.seg g).dataEdge line high = true)) :
    exec (.lineChangeOutsideTransfer g line high) s = .next (s.updSeg g (lineChange line high)) :=
  congrArg Host.Outcome.next (if_neg h)

/-- A report of the clock is never a start or a stop. -/
theorem exec_clockChange (s : State) (g : Seg) (high : Bool) :
    exec (.lineChangeOutsideTransfer g .clock high) s = .next (s.updSeg g (lineChange .clock high)) :=
  exec_lineChange fun ⟨_, hedge⟩ => Bool.false_ne_true hedge

/-- A timer of a held clock, as it stops, starts or goes on (R63, R68, R83). -/
theorem clockTimer_eq (high : Bool) (limit : Nat) (running : Timer) :
    clockTimer high limit running = if high then none else if running = none then some limit else running := by
  cases high <;> cases running <;> rfl

/-- The clock of a segment whose engine does not hold the bus (R64, R68). -/
theorem lineChange_clock_waiting {x : Segment} (high : Bool) (h : ¬ HoldsBus x.engine) :
    lineChange .clock high x = { x with
      sclHigh := high
      engine := { x.engine with
        busyTimer := if x.engine.state ≠ .waitFree ∨ x.known = true then x.engine.busyTimer
          else clockTimer high (x.config.busBusyLimit.toNat * Config.ms) x.engine.busyTimer } } := by
  have hrelease : x.engine.state ≠ .releaseWait := fun hr => h (.inr (.inl hr))
  unfold lineChange
  dsimp only
  rw [if_neg hrelease, if_neg (mt (holdsBus_iff _).mp h), waitingClock]
  by_cases hwait : x.engine.state = .waitFree ∧ x.known = false
  · rw [if_pos hwait, if_neg (by simp [hwait])]
  · rw [if_neg hwait, if_pos (by simpa [imp_iff_not_or] using hwait)]

/-- The clock of a segment whose engine holds the bus, outside RELEASE_WAIT (R63, R83). -/
theorem lineChange_clock_holding {x : Segment} (high : Bool) (h : x.engine.state = .transfer ∨ x.engine.state = .recovery) :
    lineChange .clock high x = { x with sclHigh := high, engine := engineClock high x } := by
  have hrelease : x.engine.state ≠ .releaseWait := by obtain h | h := h <;> simp [h]
  have hbus : HoldsBus x.engine := h.elim .inl fun h => .inr (.inr h)
  unfold lineChange
  dsimp only
  rw [if_neg hrelease, if_pos ((holdsBus_iff _).mpr hbus)]

/-- In RELEASE_WAIT a report of the clock is left to CLOCK_RELEASED (R82). -/
theorem lineChange_clock_releaseWait {x : Segment} (high : Bool) (h : x.engine.state = .releaseWait) : lineChange .clock high x = x :=
  if_pos h

theorem engineClock_stretch {x : Segment} (high : Bool) (ht : x.engine.state = .transfer)
    (hc : x.engine.closing = .none ∨ x.engine.closing = .mark) :
    engineClock high x =
      { x.engine with stretchTimer := clockTimer high (x.config.stretchLimit.toNat * Config.ms) x.engine.stretchTimer } := by
  unfold engineClock
  obtain hc | hc := hc <;> simp only [ht, hc]

theorem engineClock_untimed {x : Segment} (high : Bool) (ht : x.engine.state = .transfer)
    (hc : x.engine.closing = .offline ∨ x.engine.closing = .deviceReset) : engineClock high x = x.engine := by
  unfold engineClock
  obtain hc | hc := hc <;> simp only [ht, hc]

theorem engineClock_recovery {x : Segment} (high : Bool) (hr : x.engine.state = .recovery) :
    engineClock high x = { x.engine with releaseTimer := clockTimer high Config.clockReleaseLimit x.engine.releaseTimer } := by
  unfold engineClock
  simp only [hr]

/-- A reported rise of the data line with the clock high is a stop, and a fall a start (R62). -/
theorem exec_dataEdge {s : State} {g : Seg} {high : Bool} (ho : s.live = true) (h : (s.seg g).dataEdge .data high = true) :
    exec (.lineChangeOutsideTransfer g .data high) s = exec (if high then .remoteStop g else .remoteStart g) s := by
  refine (congrArg Host.Outcome.next (if_pos ⟨ho, h⟩)).trans ?_
  cases high with
  | true => exact congrArg Host.Outcome.next (onWire_live (seeStop g) ho).symm
  | false => exact congrArg Host.Outcome.next (onWire_live (seeStart g) ho).symm

/-- A row that changes one segment alone, with the frame first. -/
theorem exec_lineChange_only {i : Instr} {s : State} {g : Seg} {f : Segment → Segment} {x : Segment} (h : exec i s = .next (s.updSeg g f))
    (hx : f (s.seg g) = x) : ∃ t : State, exec i s = .next t ∧ t = { s with segs := t.segs } ∧ OnlySegment s t g x := by
  obtain ⟨t, hexec, hsegment, hframe⟩ := exec_updSeg h hx
  exact ⟨t, hexec, hframe, hsegment⟩

/-- Settles O57: a report of the clock by the state of the engine, and a report of the data line by whether it is a start or a stop. -/
theorem lineChanges : Obligations.LineChanges := by
  intro s g high
  have hclock := exec_clockChange s g high
  refine ⟨fun h => exec_lineChange_only hclock ?_, fun ho hup ht hr hh hc hd => ?_, fun h => ?_, fun ht hc => exec_lineChange_only hclock ?_,
    fun ht hc => exec_lineChange_only hclock ?_, fun hr => ?_, fun hr => exec_lineChange_only hclock ?_⟩
  · rw [lineChange_clock_waiting high h, clockTimer_eq]
    rfl
  · exact exec_dataEdge ho ((dataEdge_iff _ _).mpr ⟨hup, ht, hr, hh, hc, hd⟩)
  · refine exec_lineChange_only (exec_lineChange ?_) rfl
    rw [dataEdge_iff]
    rintro ⟨hl, hup, ht, hr, hh, hc, hd⟩
    obtain h | ⟨h, h'⟩ | h | h | h | h | h := h
    · rw [hl] at h; cases h
    · exact hup.elim h h'
    · exact ht h
    · exact hr h
    · exact hh h
    · rw [hc] at h; cases h
    · exact hd h
  · rw [lineChange_clock_holding high (.inl ht), engineClock_stretch high ht hc, clockTimer_eq]
    rfl
  · rw [lineChange_clock_holding high (.inl ht), engineClock_untimed high ht hc]
  · rw [hclock, updSeg_self (lineChange_clock_releaseWait high hr)]
  · rw [lineChange_clock_holding high (.inr hr), engineClock_recovery high hr, clockTimer_eq]
    rfl

end Sys2Proof.Machine
end

section
/-! SUPPORT. The queue settings, the coalescing timer, the time base and RETIRE: what each leaves of the Completion Queue, of CQ_READY and of the
coalescing timer (sections 6.3 and 6.4, chapter 9). -/

namespace Sys2Proof.Machine

open Sys2Proof.Safety Sys2Proof.Claims

/-! ### The coalescing timer and the time base -/

/-- The expiry of a running coalescing timer (R122). -/
theorem exec_coalescingTimerExpiry {s : State} (ho : s.live = true) (ht : s.cq.timer.isSome = true) :
    exec .coalescingTimerExpiry s = .next s.signalQueue :=
  congrArg Host.Outcome.next ((onWire_live _ ho).trans (if_pos ht))

theorem signalQueue_raises (s : State) : Raises s s.signalQueue [.cqReady] := raises_congr (raises_raise s .cqReady) rfl rfl

/-- Settles O37: the expiry is signalQueue, and the time base is a counter of 32 bits. -/
theorem timersOfTheQueueAndTheTimeBase : Obligations.TimersOfTheQueueAndTheTimeBase := by
  refine ⟨fun s ho ht => ?_, fun s hrst => ?_, fun s hrst => ?_⟩
  · exact ⟨_, exec_coalescingTimerExpiry ho ht, signalQueue_raises s, rfl, rfl⟩
  · refine ⟨s.updEv (fun x => { x with timeBase := x.timeBase + 1 }), congrArg Host.Outcome.next (if_neg (by simp [hrst])), ?_, rfl⟩
    exact BitVec.toNat_add s.ev.timeBase 1
  · exact congrArg Host.Outcome.next (if_pos hrst)

/-! ### RETIRE -/

theorem retire_empty {s : State} (hq : s.cq.queue = []) : retire s = refuse s .queueEmpty 0 := by rw [retire, hq]

/-- RETIRE frees the slot of the head record, and the timer stops with an empty queue (R118). -/
theorem retire_head {s : State} {n : SlotId} {rest : List SlotId} (hq : s.cq.queue = n :: rest) :
    retire s =
      accept ((s.updSlot n (fun x => { x with state := .free })).updCq (fun q => { q with
        queue := rest, timer := if rest = [] then none else q.timer })) n.val := by
  rw [retire, hq]
  simp only [List.isEmpty_iff]

/-- Settles O18: RETIRE by whether the queue is empty. -/
theorem retireFreesTheHeadRecord : Obligations.RetireFreesTheHeadRecord := by
  refine ⟨fun s n rest ho hq hdone => ?_, fun s ho hq => ?_⟩
  · have hrun := runCommand_accept ho (retire_head (s := storeCode Command.retire.code s) hq)
    have honly : OnlySlot s (runCommand Command.retire.code retire s) n { s.slot n with state := .free } := by
      rw [hrun]; exact onlySlot_of_updSlot (u := storeCode Command.retire.code s) (fun x => { x with state := .free }) rfl rfl
    have hfree := freeCount_succ (onlySlot_symm honly) (congrArg Slot.state honly.1) (by simp [hdone])
    refine ⟨_, rfl, ?_, honly, hfree.symm, ?_, ?_, ?_⟩
    · rw [hrun]; rfl
    · rw [hrun, State.depth, State.depth, hq]; rfl
    · rw [hrun]; rfl
    · rw [hrun]; rfl
  · exact ⟨_, rfl, runCommand_refused ho (retire_empty hq) (by decide)⟩

/-! ### The queue settings -/

theorem storedThreshold_toNat (written : BitVec 6) :
    (storedThreshold written).toNat = if written = 0 then 1 else if 32 < written.toNat then 32 else written.toNat := by
  unfold storedThreshold
  split
  · rfl
  · split <;> rfl

/-- A threshold lies in 1 to 32. -/
abbrev ThresholdInRange (threshold : BitVec 6) : Prop := 1 ≤ threshold.toNat ∧ threshold.toNat ≤ 32

/-- A stored threshold lies in its range (R120). -/
theorem storedThreshold_inRange (written : BitVec 6) : ThresholdInRange (storedThreshold written) := by
  rw [ThresholdInRange, storedThreshold_toNat]
  split
  · omega
  · rename_i h
    have hpos : written.toNat ≠ 0 := fun h0 => h (BitVec.eq_of_toNat_eq h0)
    split <;> omega

/-- The depth stands at a threshold (R120). -/
abbrev Reaches (s : State) (threshold : BitVec 6) : Prop := 1 ≤ s.depth ∧ threshold.toNat ≤ s.depth

/-- From s to t a threshold and a delay have been stored and have acted on CQ_READY and the coalescing timer (R120). -/
structure Configures (s t : State) (threshold : BitVec 6) (delay : Byte) : Prop where
  stored : t.cq = { s.cq with threshold := threshold, delay := delay, timer := t.cq.timer }
  flags : ∀ e : EventFlag, t.flag e = true ↔ s.flag e = true ∨ (e = .cqReady ∧ Reaches s threshold)
  stops : delay = 0 ∨ (s.flag .cqReady = false ∧ t.flag .cqReady = true) → t.cq.timer = none
  leaves : delay ≠ 0 → s.cq.timer.isSome = true → s.flag .cqReady = false → t.flag .cqReady = false → t.cq.timer = s.cq.timer
  starts : delay ≠ 0 → s.cq.timer = none → s.cq.queue ≠ [] → t.flag .cqReady = false → t.cq.timer = some (delay.toNat * 100)
  rests : s.cq.timer = none → s.cq.queue = [] ∨ t.flag .cqReady = true → t.cq.timer = none
  frame : t = { s with ev := { s.ev with flags := t.ev.flags }, cq := t.cq }

/-- The settings are stored, and CQ_READY is set where it was clear and the depth reaches the new threshold (R120). -/
def State.compareThreshold (s : State) (threshold : BitVec 6) (delay : Byte) : State :=
  if s.flag .cqReady = false ∧ Reaches s threshold then
    (s.updCq (fun q => { q with threshold := threshold, delay := delay })).signalQueue
  else s.updCq (fun q => { q with threshold := threshold, delay := delay })

/-- The delay stops the timer, starts it, or leaves it (R120). -/
def State.applyDelay (s : State) : State :=
  if s.cq.delay = 0 then s.updCq (fun q => { q with timer := none })
  else if s.cq.timer = none ∧ s.cq.queue ≠ [] ∧ s.flag .cqReady = false then s.startCoalescing
  else s

theorem compareThreshold_delay (s : State) (threshold : BitVec 6) (delay : Byte) : (s.compareThreshold threshold delay).cq.delay = delay := by
  unfold State.compareThreshold
  split <;> rfl

/-- A write of CQCFG compares the threshold, then applies the delay (R120). -/
theorem configureQueue_eq (s : State) (written : BitVec 6) (delay : Byte) :
    s.configureQueue written delay = (s.compareThreshold (storedThreshold written) delay).applyDelay := by
  have hcompare : (if !s.flag .cqReady && decide (1 ≤ s.depth) && decide ((storedThreshold written).toNat ≤ s.depth) then
      (s.updCq (fun q => { q with threshold := storedThreshold written, delay := delay })).signalQueue
      else s.updCq (fun q => { q with threshold := storedThreshold written, delay := delay })) =
      s.compareThreshold (storedThreshold written) delay :=
    if_congr (by simp [and_assoc]) rfl rfl
  unfold State.configureQueue State.applyDelay
  dsimp only
  rw [hcompare, compareThreshold_delay]
  simp [and_assoc]

theorem compareThreshold_flag (s : State) (threshold : BitVec 6) (delay : Byte) (e : EventFlag) :
    (s.compareThreshold threshold delay).flag e = true ↔ s.flag e = true ∨ (e = .cqReady ∧ Reaches s threshold) := by
  unfold State.compareThreshold
  split
  · rename_i h; rw [and_iff_left h.2]; simp
  · rename_i h
    rw [updCq_flag]
    refine ⟨.inl, fun he => he.elim id ?_⟩
    rintro ⟨rfl, hr⟩
    simpa [hr] using h

theorem compareThreshold_frame (s : State) (threshold : BitVec 6) (delay : Byte) :
    s.compareThreshold threshold delay =
      { s with
        ev := { s.ev with flags := (s.compareThreshold threshold delay).ev.flags }
        cq := { s.cq with threshold := threshold, delay := delay, timer := (s.compareThreshold threshold delay).cq.timer } } := by
  unfold State.compareThreshold
  split <;> rfl

theorem compareThreshold_timer (s : State) (threshold : BitVec 6) (delay : Byte) :
    (s.compareThreshold threshold delay).cq.timer = if s.flag .cqReady = false ∧ Reaches s threshold then none else s.cq.timer := by
  unfold State.compareThreshold
  split <;> rfl

theorem applyDelay_frame (s : State) : s.applyDelay = { s with cq := { s.cq with timer := s.applyDelay.cq.timer } } := by
  unfold State.applyDelay
  split
  · rfl
  · split
    · rw [startCoalescing_eq]
    · rfl

@[simp] theorem applyDelay_flag (s : State) (e : EventFlag) : s.applyDelay.flag e = s.flag e := by rw [applyDelay_frame]; rfl

theorem applyDelay_timer (s : State) :
    s.applyDelay.cq.timer =
      if s.cq.delay = 0 then none
      else if s.cq.timer = none ∧ s.cq.queue ≠ [] ∧ s.flag .cqReady = false then some (s.cq.delay.toNat * 100)
      else s.cq.timer := by
  unfold State.applyDelay
  split
  · rfl
  · rename_i hdelay
    split
    · rw [startCoalescing_eq, if_neg hdelay]
    · rfl

/-- A write of CQCFG, said once (R120). -/
theorem configureQueue_configures (s : State) (written : BitVec 6) (delay : Byte) :
    Configures s (s.configureQueue written delay) (storedThreshold written) delay := by
  obtain ⟨u, hu⟩ : ∃ u, u = s.compareThreshold (storedThreshold written) delay := ⟨_, rfl⟩
  have hframe := compareThreshold_frame s (storedThreshold written) delay
  have hflag := compareThreshold_flag s (storedThreshold written) delay
  have htimer := compareThreshold_timer s (storedThreshold written) delay
  rw [configureQueue_eq]
  rw [← hu] at hframe hflag htimer ⊢
  have hdone := applyDelay_timer u
  rw [show u.cq.delay = delay by rw [hframe], show u.cq.queue = s.cq.queue by rw [hframe]] at hdone
  have hset : ∀ {b : Bool}, s.flag .cqReady = false → u.flag .cqReady = b → (b = true ↔ Reaches s (storedThreshold written)) :=
    fun hclear hb => by rw [← hb, hflag]; simp [hclear]
  refine ⟨?_, fun e => ?_, fun h => ?_, fun hd ht hs hf => ?_, fun hd ht hq hf => ?_, fun ht h => ?_, ?_⟩
  · rw [applyDelay_frame, hframe]
  · rw [applyDelay_flag, hflag]
  · rw [applyDelay_flag] at h
    rw [hdone]
    obtain h | ⟨hs, hf⟩ := h
    · rw [if_pos h]
    · have hnone : u.cq.timer = none := by rw [htimer, if_pos ⟨hs, (hset hs hf).mp rfl⟩]
      simp [hnone, hf]
  · rw [applyDelay_flag] at hf
    have hkept : u.cq.timer = s.cq.timer := by rw [htimer, if_neg fun h => by simpa using (hset hs hf).mpr h.2]
    rw [hdone, if_neg hd, if_neg fun h => by simp [← hkept, h.1] at ht, hkept]
  · rw [applyDelay_flag] at hf
    have hnone : u.cq.timer = none := by rw [htimer, ht, ite_self]
    rw [hdone, if_neg hd, if_pos ⟨hnone, hq, hf⟩]
  · rw [applyDelay_flag] at h
    have hnone : u.cq.timer = none := by rw [htimer, ht, ite_self]
    rw [hdone, hnone]
    obtain hq | hf := h
    · simp [hq]
    · simp [hf]
  · rw [applyDelay_frame, hframe]

/-- The two bytes of a word, each placed at its bits. -/
theorem place_low_high {low : Nat} (h : low < 256) (high : Byte) : place 0 low ||| place 8 high.toNat = high ++ BitVec.ofNat 8 low := by
  apply BitVec.eq_of_getLsbD_eq
  intro i hi
  rw [BitVec.getLsbD_or, getLsbD_place, getLsbD_place, BitVec.getLsbD_append, BitVec.getLsbD_ofNat]
  by_cases hlow : i < 8
  · simp [hi, hlow]
  · have hfits : low < 2 ^ i := lt_of_lt_of_le h (Nat.pow_le_pow_right (n := 2) (by decide) (not_lt.mp hlow))
    have hbit : low.testBit i = false := Nat.testBit_lt_two_pow hfits
    simp [hi, hlow, hbit, not_lt.mp hlow, BitVec.testBit_toNat]

/-- CQCFG shows the threshold and the delay while the window is open (section 10.2). -/
theorem readRegister_cqCfg {s : State} (ho : s.windowOpen = true) (ht : s.cq.threshold.toNat < 256) :
    s.readRegister .cqCfg = s.cq.delay ++ BitVec.ofNat 8 s.cq.threshold.toNat := by
  obtain ⟨hrst, hbusy⟩ := (windowOpen_iff s).mp ho
  have hword : s.readRegister .cqCfg = s.registerWord .cqCfg := by simp [State.readRegister, hrst, hbusy]
  exact hword.trans (place_low_high ht s.cq.delay)

/-- Settles O36: the settings are stored, compared and applied, and CQCFG shows the two stored fields. -/
theorem queueSettingsTakeEffect : Obligations.QueueSettingsTakeEffect := by
  intro s v ho
  dsimp only
  rw [← storedThreshold_toNat]
  obtain ⟨t, ht⟩ : ∃ t, t = s.configureQueue (v.extractLsb' 0 6) (v.extractLsb' 8 8) := ⟨_, rfl⟩
  have hc := ht ▸ configureQueue_configures s (v.extractLsb' 0 6) (v.extractLsb' 8 8)
  have hexec : exec (.cqcfgWrite v) s = .next t := congrArg Host.Outcome.next ((onWindow_open (writeCqcfg v) ho).trans ht.symm)
  have hthreshold : t.cq.threshold = storedThreshold (v.extractLsb' 0 6) := by rw [hc.stored]
  have hdelay : t.cq.delay = v.extractLsb' 8 8 := by rw [hc.stored]
  have hread : t.readRegister .cqCfg = v.extractLsb' 8 8 ++ BitVec.ofNat 8 (storedThreshold (v.extractLsb' 0 6)).toNat := by
    have hopen : t.windowOpen = true := by rw [hc.frame]; exact ho
    rw [readRegister_cqCfg hopen (by omega), hdelay, hthreshold]
  exact ⟨t, hexec, by rw [hc.stored], congrArg BitVec.toNat hthreshold, hdelay, hread, hc.flags, fun h => hc.stops (.inl h), hc.leaves,
    fun h h' => hc.stops (.inr ⟨h, h'⟩), hc.starts, hc.rests, hc.frame⟩

end Sys2Proof.Machine
end

section
/-! SUPPORT. The signals of the Completion Queue as SignalInv sees them, with what the updates of the state and the shared operations of
Machine/Work.lean do to them: most leave them, and the completion of a slot appends a record (section 6.4). -/

namespace Sys2Proof.Machine

open Sys2Proof.Safety Sys2Proof.Claims

/-! ### The signals of a state -/

/-- What SignalInv reads: the queue with its settings and its timer, CQ_READY, and whether a DEVICE_RESET runs. -/
structure Signals where
  cq : CompletionQueue
  ready : Bool
  busy : Bool

/-- The signals of a state. -/
def State.signals (s : State) : Signals := ⟨s.cq, s.flag .cqReady, s.win.resetBusy⟩

/-- CQ_READY and the coalescing timer are true to the queue (R120 to R123). -/
structure Signals.InOrder (v : Signals) : Prop where
  range : ThresholdInRange v.cq.threshold
  signalled : v.busy = false → 1 ≤ v.cq.queue.length → v.cq.threshold.toNat ≤ v.cq.queue.length → v.ready = true
  timed : v.busy = false → (v.cq.timer.isSome = true ↔ v.cq.delay ≠ 0 ∧ v.cq.queue ≠ [] ∧ v.ready = false)
  stopped : v.busy = true → v.cq.timer = none

theorem signalInv_iff (s : State) : SignalInv s ↔ s.signals.InOrder :=
  ⟨fun h => ⟨h.range, h.signalled, h.timed, h.stopped⟩, fun h => ⟨h.range, h.signalled, h.timed, h.stopped⟩⟩

/-- From v to w the signals stay in order, while no DEVICE_RESET runs and without one beginning or ending. -/
structure Signals.Keeps (v w : Signals) : Prop where
  busy : w.busy = v.busy
  inOrder : v.busy = false → v.InOrder → w.InOrder

theorem Signals.Keeps.refl (v : Signals) : v.Keeps v := ⟨rfl, fun _ => id⟩

theorem Signals.Keeps.of_eq {v w : Signals} (h : w = v) : v.Keeps w := h ▸ .refl v

theorem Signals.Keeps.trans {u v w : Signals} (h : u.Keeps v) (k : v.Keeps w) : u.Keeps w :=
  ⟨k.busy.trans h.busy, fun hu hin => k.inOrder (h.busy.trans hu) (h.inOrder hu hin)⟩

/-- With CQ_READY set and the timer stopped nothing is left to signal. -/
theorem Signals.InOrder.of_ready {v : Signals} (range : ThresholdInRange v.cq.threshold) (ready : v.ready = true)
    (timer : v.cq.timer = none) : v.InOrder :=
  ⟨range, fun _ _ _ => ready, fun _ => by simp [ready, timer], fun _ => timer⟩

/-- With an empty queue and the timer stopped nothing is there to signal. -/
theorem Signals.InOrder.of_empty {v : Signals} (range : ThresholdInRange v.cq.threshold) (queue : v.cq.queue = [])
    (timer : v.cq.timer = none) : v.InOrder :=
  ⟨range, fun _ h => by simp [queue] at h, fun _ => by simp [queue, timer], fun _ => timer⟩

/-- While CQ_READY is set the timer stands still (R122). -/
theorem Signals.InOrder.timer_of_ready {v : Signals} (h : v.InOrder) (hb : v.busy = false) (ready : v.ready = true) : v.cq.timer = none := by
  simpa [ready] using h.timed hb

/-- An empty queue starts no timer (R122). -/
theorem Signals.InOrder.timer_of_empty {v : Signals} (h : v.InOrder) (hb : v.busy = false) (queue : v.cq.queue = []) :
    v.cq.timer = none := by
  simpa [queue] using h.timed hb

/-- The states of a row in which its condition fails. -/
theorem signals_if {c : Prop} [Decidable c] {s t : State} (h : c → t.signals = s.signals) : (if c then t else s).signals = s.signals := by
  split
  · rename_i hc; exact h hc
  · rfl

theorem keepsSignals_if {c : Prop} [Decidable c] {s t : State} (h : c → s.signals.Keeps t.signals) :
    s.signals.Keeps (if c then t else s).signals := by
  split
  · rename_i hc; exact h hc
  · exact .refl _

/-! ### The updates -/

theorem signals_congr {s t : State} (hcq : t.cq = s.cq) (hev : t.ev.flags = s.ev.flags) (hbusy : t.win.resetBusy = s.win.resetBusy) :
    t.signals = s.signals := by
  simp only [State.signals, State.flag, hcq, hev, hbusy]

@[simp] theorem updSlot_signals (s : State) (n : SlotId) (f : Slot → Slot) : (s.updSlot n f).signals = s.signals := rfl

@[simp] theorem updTarget_signals (s : State) (k : TargetId) (f : TargetEntry → TargetEntry) : (s.updTarget k f).signals = s.signals := rfl

@[simp] theorem updEntryOf_signals (s : State) (n : SlotId) (f : TargetEntry → TargetEntry) : (s.updEntryOf n f).signals = s.signals := by
  rw [updEntryOf_frame]; rfl

@[simp] theorem updSeg_signals (s : State) (g : Seg) (f : Segment → Segment) : (s.updSeg g f).signals = s.signals := rfl

@[simp] theorem updEngine_signals (s : State) (g : Seg) (f : Engine → Engine) : (s.updEngine g f).signals = s.signals := rfl

@[simp] theorem updCtx_signals (s : State) (g : Seg) (f : RxContext → RxContext) : (s.updCtx g f).signals = s.signals := rfl

@[simp] theorem updEntry_signals (s : State) (e : EntryId) (f : MatchEntry → MatchEntry) : (s.updEntry e f).signals = s.signals := rfl

@[simp] theorem updBox_signals (s : State) (m : BoxId) (f : Mailbox → Mailbox) : (s.updBox m f).signals = s.signals := rfl

@[simp] theorem updWin_signals {s : State} {f : Window → Window} (h : ∀ w, (f w).resetBusy = w.resetBusy) :
    (s.updWin f).signals = s.signals := signals_congr rfl rfl (h _)

@[simp] theorem updEv_signals {s : State} {f : EventUnit → EventUnit} (h : ∀ x, (f x).flags = x.flags) : (s.updEv f).signals = s.signals :=
  signals_congr rfl (h _) rfl

/-- CQ_READY apart, a flag is no signal of the queue. -/
@[simp] theorem raise_signals {s : State} {e : EventFlag} (h : e ≠ .cqReady) : (s.raise e).signals = s.signals := by
  have hready : (s.raise e).flag .cqReady = s.flag .cqReady := by simp [Ne.symm h]
  simp only [State.signals, hready, raise_cq, raise_win]

/-! ### The completion of a slot -/

/-- A record that joins the queue sets CQ_READY, or the depth stays below the threshold; the timer starts with the first record (R121, R122). -/
theorem appends_keepsSignals {s t : State} {n : SlotId} (h : Appends s t n) (hbusy : t.win.resetBusy = s.win.resetBusy) :
    s.signals.Keeps t.signals := by
  refine ⟨hbusy, fun hidle hs => ?_⟩
  have hqueue : t.signals.cq.queue = s.cq.queue ++ [n] := congrArg CompletionQueue.queue h.queue
  have hthreshold : t.signals.cq.threshold = s.cq.threshold := (congrArg CompletionQueue.threshold h.queue :)
  have hdelay : t.signals.cq.delay = s.cq.delay := (congrArg CompletionQueue.delay h.queue :)
  have hrange : ThresholdInRange t.signals.cq.threshold := hthreshold ▸ hs.range
  by_cases hsig : SignalsAtOnce s n
  · exact .of_ready hrange (h.ready.mpr (.inr hsig)) (h.signalled hsig)
  · have hflag : t.signals.ready = s.signals.ready := by
      rw [Bool.eq_iff_iff]; exact h.ready.trans (or_iff_left hsig)
    refine ⟨hrange, fun _ _ hdepth => ?_, fun _ => ?_, fun hb => absurd (hb.symm.trans (hbusy.trans hidle)) (by simp)⟩
    · rw [hqueue, hthreshold, List.length_append] at hdepth
      exact absurd (.inr hdepth) hsig
    · rw [hqueue, hdelay, hflag]
      by_cases hstarts : s.cq.queue = [] ∧ s.flag .cqReady = false ∧ s.cq.delay ≠ 0
      · obtain ⟨hempty, hclear, hd⟩ := hstarts
        have htimer : t.signals.cq.timer = some (s.cq.delay.toNat * 100) := h.started hsig hempty hclear hd
        simp only [htimer, Option.isSome_some, true_iff]
        exact ⟨hd, by simp, hclear⟩
      · have hkept : s.cq.queue ≠ [] ∨ s.flag .cqReady = true ∨ s.cq.delay = 0 := by
          by_contra hno
          simp only [not_or, not_not, Bool.not_eq_true] at hno
          exact hstarts hno
        have htimer : t.signals.cq.timer = s.signals.cq.timer := h.kept hsig hkept
        rw [htimer, hs.timed hidle]
        obtain hq | hf | hd := hkept
        · exact and_congr_right fun _ => and_congr_left fun _ => iff_of_true hq (by simp)
        · exact iff_of_false (fun hc => absurd (hf.symm.trans hc.2.2) (by simp)) fun hc => absurd (hf.symm.trans hc.2.2) (by simp)
        · exact iff_of_false (fun hc => hc.1 hd) fun hc => hc.1 hd

theorem completeSlot_keepsSignals (n : SlotId) (st : Status) (s : State) : s.signals.Keeps (completeSlot n st s).signals :=
  appends_keepsSignals (completeSlot_completes s n st).1.toAppends (by rw [completeSlot_win])

theorem completeActive_keepsSignals (g : Seg) (st : Status) (s : State) : s.signals.Keeps (completeActive g st s).signals := by
  unfold completeActive
  split
  · exact completeSlot_keepsSignals _ st s
  · exact .refl _

theorem foldl_completeSlot_keepsSignals (st : Status) (ns : List SlotId) (s : State) :
    s.signals.Keeps (ns.foldl (fun t n => completeSlot n st t) s).signals := by
  induction ns generalizing s with
  | nil => exact .refl _
  | cons n ns ih => exact (completeSlot_keepsSignals n st s).trans (ih _)

theorem finishSlot_keepsSignals (g : Seg) (n : SlotId) (st : Status) (s : State) : s.signals.Keeps (finishSlot g n st s).signals :=
  completeSlot_keepsSignals n st s

/-! ### Contexts, departures and the way into RECOVERY -/

@[simp] theorem endPhase_signals (g : Seg) (s : State) : (endPhase g s).signals = s.signals := by
  unfold endPhase endRemoteWrite
  dsimp only
  split
  · split <;> simp
  · split <;> rfl
  all_goals rfl

@[simp] theorem contextStart_signals (g : Seg) (s : State) : (contextStart g s).signals = s.signals := by simp [contextStart]

@[simp] theorem contextStop_signals (g : Seg) (s : State) : (contextStop g s).signals = s.signals := by simp [contextStop]

@[simp] theorem endContext_signals (g : Seg) (s : State) : (endContext g s).signals = s.signals := by
  unfold endContext
  dsimp only
  rw [updCtx_signals]
  split
  · simp
  · split <;> rfl
  all_goals rfl

@[simp] theorem releaseLines_signals (g : Seg) (s : State) : (releaseLines g s).signals = s.signals := rfl

@[simp] theorem enterState_signals (g : Seg) (dest : SegState) (dm : DownMode) (s : State) :
    (enterState g dest dm s).signals = s.signals := by simp [enterState]

@[simp] theorem stopQualifier_signals (g : Seg) (s : State) : (stopQualifier g s).signals = s.signals := rfl

/-- A departure completes the active slot, and does no more to the queue (R129). -/
theorem depart_keepsSignals (g : Seg) (dest : SegState) (dm : DownMode) (st : Status) (s : State) :
    s.signals.Keeps (depart g dest dm st s).signals := by
  rw [depart, endContext_signals, enterState_signals]
  exact completeActive_keepsSignals g st (releaseLines g s)

theorem goDark_keepsSignals (g : Seg) (s : State) : s.signals.Keeps (goDark g s).signals := depart_keepsSignals g _ _ _ (stopQualifier g s)

theorem enterFaulted_keepsSignals (g : Seg) (s : State) : s.signals.Keeps (enterFaulted g s).signals := depart_keepsSignals g _ _ _ s

@[simp] theorem settleIfPowered_signals (g : Seg) (s : State) : (settleIfPowered g s).signals = s.signals := signals_if fun _ => by simp

@[simp] theorem enterRecovery_signals (g : Seg) (s : State) : (enterRecovery g s).signals = s.signals := by simp [enterRecovery]

@[simp] theorem sendStart_signals (g : Seg) (s : State) : (sendStart g s).signals = s.signals := by simp [sendStart]

@[simp] theorem meetBus_signals (g : Seg) (held : Nat) (s : State) : (meetBus g held s).signals = s.signals := by
  unfold meetBus
  split
  · exact enterRecovery_signals g s
  · split
    · exact sendStart_signals g s
    · exact signals_if fun _ => rfl

/-! ### The attempt -/

@[simp] theorem markAbsent_signals (n : SlotId) (f : Failure) (s : State) : (markAbsent n f s).signals = s.signals := updEntryOf_signals s n _

@[simp] theorem creditTarget_signals (n : SlotId) (s : State) : (creditTarget n s).signals = s.signals := updEntryOf_signals s n _

@[simp] theorem quarantine_signals (n : SlotId) (s : State) : (quarantine n s).signals = s.signals := by
  unfold quarantine
  split
  · rfl
  · simp

@[simp] theorem recordFailure_signals (g : Seg) (n : SlotId) (f : Failure) (s : State) : (recordFailure g n f s).signals = s.signals := by
  unfold recordFailure countFailure
  split <;> simp

@[simp] theorem fixAttempt_signals (g : Seg) (n : SlotId) (s : State) : (fixAttempt g n s).signals = s.signals := rfl

theorem beginAttempt_keepsSignals (g : Seg) (held : Nat) (s : State) : s.signals.Keeps (beginAttempt g held s).signals := by
  unfold beginAttempt
  split
  · exact .refl _
  · rename_i n _
    split
    · exact finishSlot_keepsSignals g _ _ s
    · split
      · rename_i f _
        simpa using finishSlot_keepsSignals g n f.status (markAbsent n f s)
      · exact .of_eq (by simp)

theorem enterBackoff_keepsSignals (g : Seg) (n : SlotId) (s : State) : s.signals.Keeps (enterBackoff g n s).signals := by
  unfold enterBackoff
  split
  · exact finishSlot_keepsSignals g n _ s
  · exact .refl _

theorem enterPollWait_keepsSignals (g : Seg) (n : SlotId) (s : State) : s.signals.Keeps (enterPollWait g n s).signals := by
  unfold enterPollWait
  split
  · exact finishSlot_keepsSignals g n _ s
  · exact .refl _

/-- The evaluation completes the slot, or leaves it to another attempt (R96). -/
theorem evaluateFailure_keepsSignals (g : Seg) (f : Failure) (s : State) : s.signals.Keeps (evaluateFailure g f s).signals := by
  unfold evaluateFailure
  split
  · exact .refl _
  · rename_i n _
    rw [← recordFailure_signals g n f s]
    dsimp only
    split
    · exact finishSlot_keepsSignals g n _ _
    · split
      · simpa using finishSlot_keepsSignals g n f.status (quarantine n (recordFailure g n f s))
      · split
        · simpa using finishSlot_keepsSignals g n f.status (markAbsent n f (recordFailure g n f s))
        · exact enterBackoff_keepsSignals g n _

theorem comparePoll_keepsSignals (g : Seg) (n : SlotId) (s : State) : s.signals.Keeps (comparePoll g n s).signals := by
  unfold comparePoll
  split
  · exact finishSlot_keepsSignals g n _ s
  · dsimp only
    rw [← updSlot_signals s n (fun x => { x with pollsUsed := x.pollsUsed + 1 })]
    split
    · exact finishSlot_keepsSignals g n _ _
    · exact enterPollWait_keepsSignals g n _

theorem succeed_keepsSignals (g : Seg) (n : SlotId) (s : State) : s.signals.Keeps (succeed g n s).signals := by
  rw [← creditTarget_signals n s]
  unfold succeed
  dsimp only
  split
  · exact comparePoll_keepsSignals g n _
  · exact finishSlot_keepsSignals g n _ _

/-! ### Steps on the wire and marks -/

@[simp] theorem stepEngine_signals (g : Seg) (f : Engine → Engine) (s : State) : (stepEngine g f s).signals = s.signals := rfl

@[simp] theorem goTo_signals (g : Seg) (pos : BytePos) (s : State) : (goTo g pos s).signals = s.signals := by
  unfold goTo; cases pos <;> simp

@[simp] theorem stopRises_signals (g : Seg) (s : State) : (stopRises g s).signals = s.signals := by simp [stopRises]

theorem closeByMark_keepsSignals (g : Seg) (n : SlotId) (st : Status) (nack : Bool) (s : State) :
    s.signals.Keeps (closeByMark g n st nack s).signals := completeSlot_keepsSignals n st s

theorem afterAck_keepsSignals (g : Seg) (n : SlotId) (pos : BytePos) (s : State) : s.signals.Keeps (afterAck g n pos s).signals := by
  unfold afterAck
  split
  · exact .of_eq (goTo_signals g pos s)
  · split
    · exact closeByMark_keepsSignals g n _ false s
    · exact .of_eq (goTo_signals g pos s)

theorem markTaken_keepsSignals (g : Seg) (s : State) : s.signals.Keeps (markTaken g s).signals := by
  unfold markTaken
  split
  · exact .refl _
  · split
    · exact finishSlot_keepsSignals g _ _ s
    · exact finishSlot_keepsSignals g _ _ s
    · exact finishSlot_keepsSignals g _ _ s
    · exact .refl _

end Sys2Proof.Machine
end

section
/-! SUPPORT. The signals of the Completion Queue under the commands of the window and the events of the wires, the timers and the power. -/

namespace Sys2Proof.Machine

open Sys2Proof.Safety Sys2Proof.Claims

/-! ### How a command is carried out -/

/-- The row of an outcome leaves the signals in order. -/
def NextSignalled (s : State) (o : Host.Outcome State Fault Refusal) : Prop :=
  ∃ t : State, o = .next t ∧ (s.signals.InOrder → t.signals.InOrder)

/-- A row that leaves the signals as they are. -/
theorem NextSignalled.of_same {s t : State} (h : t.signals = s.signals) : NextSignalled s (.next t) := ⟨t, rfl, fun hs => h ▸ hs⟩

/-- A row of the window is taken while no DEVICE_RESET runs. -/
theorem onWindow_signalled {f : State → State} {s : State} (h : s.signals.Keeps (f s).signals) :
    NextSignalled s (.next (onWindow f s)) := by
  refine ⟨_, rfl, fun hs => ?_⟩
  unfold onWindow
  split
  · rename_i ho; exact h.inOrder ((windowOpen_iff s).mp ho).2 hs
  · exact hs

/-- A row of the wires is taken while no DEVICE_RESET runs. -/
theorem onWire_signalled {f : State → State} {s : State} (h : s.signals.Keeps (f s).signals) : NextSignalled s (.next (onWire f s)) := by
  refine ⟨_, rfl, fun hs => ?_⟩
  unfold onWire
  split
  · rename_i ho; exact h.inOrder ((live_iff s).mp ho).2 hs
  · exact hs

theorem onWire_signalled_same {f : State → State} {s : State} (h : (f s).signals = s.signals) : NextSignalled s (.next (onWire f s)) :=
  onWire_signalled (.of_eq h)

theorem onWindow_signalled_same {f : State → State} {s : State} (h : (f s).signals = s.signals) :
    NextSignalled s (.next (onWindow f s)) := onWindow_signalled (.of_eq h)

@[simp] theorem storeCode_signals (code : BitVec 8) (s : State) : (storeCode code s).signals = s.signals := rfl

@[simp] theorem record_signals (r : Reply) : r.record.signals = r.state.signals := by
  unfold Reply.record
  split <;> simp

/-- A write of CMD keeps the signals that its command keeps. -/
theorem runCommand_signalled {code : BitVec 8} {f : State → Reply} {s : State} (h : ∀ t : State, t.signals.Keeps (f t).state.signals) :
    NextSignalled s (.next (runCommand code f s)) :=
  onWindow_signalled (by rw [record_signals]; exact h (storeCode code s))

theorem withNumber_keepsSignals {k : Nat} {f : Fin k → State → Reply}
    (h : ∀ (n : Fin k) (t : State), t.signals.Keeps (f n t).state.signals) (s : State) :
    s.signals.Keeps (withNumber k f s).state.signals := by
  unfold withNumber
  split
  · exact h _ s
  · exact .refl _

/-- A command with a number keeps the signals that it keeps for each number in range. -/
theorem runNumber_signalled {code : BitVec 8} {k : Nat} {f : Fin k → State → Reply} {s : State}
    (h : ∀ (n : Fin k) (t : State), t.signals.Keeps (f n t).state.signals) : NextSignalled s (.next (runCommand code (withNumber k f) s)) :=
  runCommand_signalled (withNumber_keepsSignals h)

/-! ### The commands on slots, lists and the queue -/

theorem allocate_signals (s : State) : (allocate s).state.signals = s.signals := by
  unfold allocate; split <;> rfl

theorem discard_signals (n : SlotId) (s : State) : (discard n s).state.signals = s.signals := by
  unfold discard; split <;> rfl

theorem acceptPost_keepsSignals (n : SlotId) (g : Seg) (s : State) : s.signals.Keeps (acceptPost n g s).signals := by
  have hlatch : (latchPost n g s).signals = s.signals := by simp [latchPost]
  rw [← hlatch]
  unfold acceptPost
  dsimp only
  split
  · exact completeSlot_keepsSignals n _ _
  · exact .refl _

theorem post_keepsSignals (n : SlotId) (s : State) : s.signals.Keeps (post n s).state.signals := by
  unfold post
  split
  · split
    · exact .refl _
    · split
      · exact acceptPost_keepsSignals n _ s
      · exact .refl _
  · exact .refl _

/-- RETIRE lowers the depth, and stops the timer as the queue becomes empty (R118). -/
theorem retire_keepsSignals (s : State) : s.signals.Keeps (retire s).state.signals := by
  cases hq : s.cq.queue with
  | nil => rw [retire_empty hq]; exact .refl _
  | cons n rest =>
    rw [retire_head hq]
    refine ⟨rfl, fun hidle hs => ?_⟩
    by_cases hrest : rest = []
    · exact .of_empty hs.range hrest (if_pos hrest)
    · have hdepth : s.signals.cq.queue.length = rest.length + 1 := congrArg List.length hq
      have htimer : (accept ((s.updSlot n (fun x => { x with state := .free })).updCq (fun q => { q with
          queue := rest, timer := if rest = [] then none else q.timer })) n.val).state.signals.cq.timer = s.signals.cq.timer := if_neg hrest
      refine ⟨hs.range, fun _ hlow hreach => hs.signalled hidle ?_ ?_, fun _ => ?_, fun hb => absurd (hb.symm.trans hidle) (by simp)⟩
      · omega
      · exact hreach.trans (hdepth ▸ Nat.le_succ _)
      · rw [htimer, hs.timed hidle]
        exact and_congr_right fun _ => and_congr_left fun _ => iff_of_true (fun he => by simp [he] at hdepth) hrest

theorem abort_keepsSignals (n : SlotId) (s : State) : s.signals.Keeps (abort n s).state.signals := by
  have hset : s.signals.Keeps (if (s.slot n).mark = .none then accept
      (if (s.slot n).state = .active then markTaken (s.slot n).segment (setMark .aborted n s) else setMark .aborted n s) n.val
      else accept s n.val).state.signals := by
    split
    · exact keepsSignals_if (s := setMark .aborted n s) fun _ => markTaken_keepsSignals _ _
    · exact .refl _
  unfold abort
  split
  · exact hset
  · exact hset
  all_goals exact .refl _

theorem flushSegment_keepsSignals (g : Seg) (s : State) : s.signals.Keeps (flushSegment g s).state.signals := by
  have hmarks : (flushMarks g s).signals = s.signals := by rw [flushMarks_frame]; rfl
  rw [flushSegment_eq, ← hmarks]
  exact markTaken_keepsSignals g _

/-! ### The mailbox commands and READMIT -/

@[simp] theorem serveFill_signals (g : Seg) (s : State) : (serveFill g s).signals = s.signals := by simp [serveFill]

theorem releaseInbound_signals (m : BoxId) (s : State) : (releaseInbound m s).state.signals = s.signals := by
  unfold releaseInbound; split <;> rfl

theorem commitOutbound_signals (m : BoxId) (s : State) : (commitOutbound m s).state.signals = s.signals := by
  unfold commitOutbound
  split
  · rfl
  · split
    · dsimp only [accept]
      split <;> rfl
    · rfl

theorem cancelOutbound_signals (m : BoxId) (s : State) : (cancelOutbound m s).state.signals = s.signals := by
  unfold cancelOutbound
  split
  · rfl
  · rfl
  · split
    · exact serveFill_signals _ s
    · rfl

theorem readmit_signals (k : TargetId) (s : State) : (readmit k s).state.signals = s.signals := by
  unfold readmit; split <;> rfl

/-! ### The commands on segments -/

@[simp] theorem closeForOffline_signals (g : Seg) (e : Engine) (s : State) : (closeForOffline g e s).signals = s.signals := by
  unfold closeForOffline; split <;> rfl

/-- OFFLINE completes the active slot of a segment in service (R141). -/
theorem offline_keepsSignals (g : Seg) (s : State) : s.signals.Keeps (offline g s).state.signals := by
  have hworking : s.signals.Keeps (endContext g (enterState g .offline s.argMode
      (closeForOffline g (s.engine g) (completeActive g .segmentDown (stopQualifier g s))))).signals := by
    simpa using completeActive_keepsSignals g .segmentDown (stopQualifier g s)
  unfold offline
  cases (s.seg g).state with
  | offline => exact .refl _
  | up | recovering => exact hworking
  | dark | settling | faulted => exact .of_eq (enterState_signals g .offline s.argMode (stopQualifier g s))

theorem online_signals (g : Seg) (s : State) : (online g s).state.signals = s.signals := by
  unfold online
  split
  · simp [accept]
  · rfl

/-- SEGMENT_RESET completes the active slot, then the list (R144). -/
theorem clearSegment_keepsSignals (g : Seg) (s : State) : s.signals.Keeps (clearSegment g s).signals := by
  unfold clearSegment resetList
  rw [endContext_signals, updSeg_signals, stopQualifier_signals, updSeg_signals]
  exact (completeActive_keepsSignals g .reset (releaseLines g s)).trans
    (foldl_completeSlot_keepsSignals .reset _ (idleEngine g (completeActive g .reset (releaseLines g s))))

theorem segmentReset_keepsSignals (g : Seg) (s : State) : s.signals.Keeps (segmentReset g s).state.signals := by
  unfold segmentReset
  dsimp only [accept]
  split
  · exact clearSegment_keepsSignals g s
  · rw [settleIfPowered_signals, enterState_signals]
    exact clearSegment_keepsSignals g s

/-! ### Remote transfers -/

theorem seeStart_signals (g : Seg) (s : State) : (seeStart g s).signals = s.signals :=
  signals_if fun _ => by dsimp only; split <;> simp

theorem seeStop_signals (g : Seg) (s : State) : (seeStop g s).signals = s.signals :=
  signals_if fun _ => by dsimp only; split <;> simp

@[simp] theorem refuseAddress_signals (g : Seg) (s : State) : (refuseAddress g s).signals = s.signals := by
  simp [refuseAddress, leaveAddress]

theorem answerWrite_signals (g : Seg) (e : EntryId) (s : State) : (answerWrite g e s).signals = s.signals := by
  unfold answerWrite
  dsimp only
  split <;> simp

theorem answerRead_signals (g : Seg) (e : EntryId) (s : State) : (answerRead g e s).signals = s.signals := by
  unfold answerRead
  dsimp only
  split
  · simp
  · simp
  · split <;> simp

theorem evaluateAddress_signals (g : Seg) (b : Byte) (s : State) : (evaluateAddress g b s).signals = s.signals := by
  unfold evaluateAddress
  split
  · exact updCtx_signals s g _
  · split
    · exact answerWrite_signals g _ s
    · exact answerRead_signals g _ s

theorem receiveByte_signals (g : Seg) (m : BoxId) (b : Byte) (s : State) : (receiveByte g m b s).signals = s.signals := by
  unfold receiveByte
  split
  · simp
  · split <;> simp

theorem sendByte_signals (g : Seg) (ack : Bool) (s : State) : (sendByte g ack s).signals = s.signals := by
  unfold sendByte
  dsimp only
  split
  · simp
  · split <;> simp

/-! ### The dispatch -/

theorem promote_keepsSignals (g : Seg) (n : SlotId) (held : Nat) (s : State) : s.signals.Keeps (promote g n held s).signals :=
  beginAttempt_keepsSignals g held ((s.updSlot n _).updSeg g _)

theorem evaluateHead_keepsSignals (g : Seg) (held : Nat) (n : SlotId) (s : State) : s.signals.Keeps (evaluateHead g held n s).signals := by
  have hhead : ∀ st, s.signals.Keeps (completeHead g n st s).signals := fun st => completeSlot_keepsSignals n st (s.updSeg g _)
  unfold evaluateHead
  split
  · exact hhead _
  · split
    · exact hhead _
    · split
      · exact hhead _
      · exact keepsSignals_if fun _ => promote_keepsSignals g n held s

theorem execHeadEvaluation_signalled (g : Seg) (held : Nat) (s : State) : NextSignalled s (execHeadEvaluation g held s) := by
  refine onWire_signalled ?_
  split
  · exact evaluateHead_keepsSignals g held _ s
  · exact .refl _

/-! ### The bytes of an attempt -/

/-- An address byte with its acknowledge: the attempt goes on, or a mark ends it (R70, R79). -/
theorem addressByte_keepsSignals (g : Seg) (n : SlotId) (ack : Bool) (next : BytePos) (s : State) :
    s.signals.Keeps (if ack then afterAck g n next (learnAddressAck n (contextUnaddressed g s))
      else meetFailure g .nackAddress (contextUnaddressed g s)).signals := by
  split
  · simpa [learnAddressAck, contextUnaddressed] using afterAck_keepsSignals g n next (learnAddressAck n (contextUnaddressed g s))
  · exact .refl _

theorem execEngineAddressByte_signalled (g : Seg) (ack : Bool) (s : State) : NextSignalled s (execEngineAddressByte g ack s) := by
  refine onWire_signalled ?_
  split
  · exact addressByte_keepsSignals g _ ack _ s
  · exact addressByte_keepsSignals g _ ack _ s
  · exact .refl _

theorem execEngineWriteByte_signalled (g : Seg) (ack : Bool) (s : State) : NextSignalled s (execEngineWriteByte g ack s) := by
  refine onWire_signalled ?_
  split
  · split
    · exact afterAck_keepsSignals g _ _ (s.updSlot _ _)
    · exact .refl _
  · exact .refl _

theorem execEngineReadByte_signalled (g : Seg) (b : Byte) (s : State) : NextSignalled s (execEngineReadByte g b s) := by
  refine onWire_signalled ?_
  split
  · split
    · exact .refl _
    · split
      · exact closeByMark_keepsSignals g _ _ true (appendRead _ b s)
      · exact .of_eq (goTo_signals g _ (appendRead _ b s))
  · exact .refl _

/-! ### Stops and arbitration -/

theorem execClosingStop_signalled (g : Seg) (s : State) : NextSignalled s (execClosingStop g s) := by
  refine onWire_signalled ?_
  split
  · rw [← stopRises_signals g s]
    split
    · exact evaluateFailure_keepsSignals g _ _
    · exact succeed_keepsSignals g _ _
  · exact .refl _

theorem execStopFailed_signalled (g : Seg) (s : State) : NextSignalled s (execStopFailed g s) := by
  refine onWire_signalled_same ?_
  split
  · exact enterRecovery_signals g s
  · exact signals_if fun _ => rfl

theorem execArbitrationLost_signalled (g : Seg) (s : State) : NextSignalled s (execArbitrationLost g s) := by
  refine onWire_signalled ?_
  split
  · exact evaluateFailure_keepsSignals g _ (sampleLow g s)
  · exact keepsSignals_if fun _ => .refl _

/-! ### Recovery -/

theorem recovered_keepsSignals (g : Seg) (s : State) : s.signals.Keeps (recovered g s).signals := by
  have hup : (enterState g .up .none (s.updSeg g (fun x => { x with known := false, sclHigh := true, sdaHigh := true }))).signals =
      s.signals := by simp
  unfold recovered
  dsimp only
  rw [← hup]
  split
  · exact evaluateFailure_keepsSignals g _ _
  · exact .refl _

theorem execRecoveryPulse_signalled (g : Seg) (dataHigh : Bool) (s : State) : NextSignalled s (execRecoveryPulse g dataHigh s) :=
  onWire_signalled (keepsSignals_if fun _ => keepsSignals_if (s := s.updSeg g _) fun _ => enterFaulted_keepsSignals g _)

theorem execRecoveryStop_signalled (g : Seg) (rose : Bool) (s : State) : NextSignalled s (execRecoveryStop g rose s) := by
  refine onWire_signalled (keepsSignals_if fun _ => ?_)
  split
  · exact recovered_keepsSignals g s
  · exact keepsSignals_if (s := s.updSeg g _) fun _ => enterFaulted_keepsSignals g _

/-! ### The lines and the power -/

theorem execLineChangeOutsideTransfer_signalled (g : Seg) (line : Line) (high : Bool) (s : State) :
    NextSignalled s (execLineChangeOutsideTransfer g line high s) := by
  refine .of_same ?_
  split
  · split
    · exact seeStop_signals g s
    · exact seeStart_signals g s
  · rfl

theorem assertPower_signals (g : Seg) (s : State) : (assertPower g s).signals = s.signals := by
  unfold assertPower
  split
  · exact settleIfPowered_signals g s
  · exact signals_if fun _ => rfl
  · exact signals_if fun _ => rfl
  · exact signals_if fun _ => rfl
  all_goals rfl

theorem deassertPower_keepsSignals (g : Seg) (s : State) : s.signals.Keeps (deassertPower g s).signals := by
  have hlost : s.signals.Keeps (if (s.seg g).config.glitchWindow = 0 then goDark g s else startGlitchWatch g s).signals :=
    keepsSignals_if (s := startGlitchWatch g s) fun _ => goDark_keepsSignals g s
  unfold deassertPower
  split
  · exact .of_eq (by simp)
  · exact hlost
  · exact hlost
  · exact hlost
  all_goals exact .refl _

theorem execSpgAssert_signalled (g : Seg) (s : State) : NextSignalled s (execSpgAssert g s) := by
  unfold execSpgAssert
  split
  · exact .of_same rfl
  · exact onWire_signalled_same (s := recordLevel g true s) (assertPower_signals g _)

theorem execSpgDeassert_signalled (g : Seg) (s : State) : NextSignalled s (execSpgDeassert g s) := by
  unfold execSpgDeassert
  split
  · exact onWire_signalled (s := recordLevel g false s) (deassertPower_keepsSignals g _)
  · exact .of_same rfl

theorem reachUp_signals (g : Seg) (s : State) : (reachUp g s).signals = s.signals := by simp [reachUp]

end Sys2Proof.Machine
end

section
/-! SUPPORT. The signals of the Completion Queue under the registers, the resets and the table port, and with them under every row. -/

namespace Sys2Proof.Machine

open Sys2Proof.Safety Sys2Proof.Claims

/-! ### Registers and timers of the window -/

theorem signalQueue_keepsSignals (s : State) : s.signals.Keeps s.signalQueue.signals :=
  ⟨rfl, fun _ hs => .of_ready hs.range (by simp [State.signals]) rfl⟩

/-- The timer starts over what the queue holds below the threshold, with CQ_READY clear (R122, R123). -/
theorem startCoalescing_inOrder {s : State} (range : ThresholdInRange s.cq.threshold) (hidle : s.win.resetBusy = false)
    (hbelow : s.depth < s.cq.threshold.toNat) (hqueue : s.cq.queue ≠ []) (hclear : s.flag .cqReady = false) (htimer : s.cq.timer = none) :
    s.startCoalescing.signals.InOrder := by
  rw [startCoalescing_eq]
  refine ⟨range, fun _ _ hreach => absurd hreach (not_le.mpr hbelow), fun _ => ?_, fun hb => absurd (hb.symm.trans hidle) (by simp)⟩
  show (if s.cq.delay = 0 then s.cq.timer else some (s.cq.delay.toNat * 100)).isSome = true ↔
    s.cq.delay ≠ 0 ∧ s.cq.queue ≠ [] ∧ s.flag .cqReady = false
  by_cases hdelay : s.cq.delay = 0
  · rw [if_pos hdelay, htimer]
    exact iff_of_false (by simp) fun h => h.1 hdelay
  · rw [if_neg hdelay]
    exact iff_of_true rfl ⟨hdelay, hqueue, hclear⟩

/-- CQ_READY is written as 1 while it is set (R123). -/
def State.clearsReady (s : State) (ones : Word) : Bool := s.flag .cqReady && ones.getLsbD EventFlag.cqReady.bit

/-- The flags written as 1 fall (R171). -/
def State.dropFlags (s : State) (ones : Word) : State := s.updEv (fun x => { x with flags := x.flags &&& ~~~ones })

theorem clearFlags_eq (s : State) (ones : Word) :
    s.clearFlags ones =
      if s.clearsReady ones then
        if s.cq.threshold.toNat ≤ s.depth then (s.dropFlags ones).signalQueue
        else if s.cq.queue.isEmpty then s.dropFlags ones
        else (s.dropFlags ones).startCoalescing
      else s.dropFlags ones := rfl

theorem dropFlags_flag (s : State) (ones : Word) (e : EventFlag) :
    (s.dropFlags ones).flag e = (s.flag e && !ones.getLsbD e.bit) := by
  simp [State.flag, State.dropFlags, bit_lt e]

/-- A clear that leaves CQ_READY as it was is none to the queue. -/
theorem dropFlags_signals {s : State} {ones : Word} (h : s.clearsReady ones = false) : (s.dropFlags ones).signals = s.signals := by
  have hready : (s.dropFlags ones).flag .cqReady = s.flag .cqReady := by
    rw [dropFlags_flag]
    simpa [State.clearsReady] using h
  simp only [State.signals, hready]
  rfl

/-- A clear of CQ_READY is answered by the depth: the flag is set again, or the timer starts over what the queue holds (R123). -/
theorem clearFlags_keepsSignals (s : State) (ones : Word) : s.signals.Keeps (s.clearFlags ones).signals := by
  rw [clearFlags_eq]
  split
  · rename_i hclears
    have hready : s.signals.ready = true := (Bool.and_eq_true_iff.mp hclears).1
    have hdropped : (s.dropFlags ones).flag .cqReady = false := by
      rw [dropFlags_flag, (Bool.and_eq_true_iff.mp hclears).2]; simp
    split
    · exact ⟨rfl, fun _ hs => .of_ready hs.range (by simp [State.signals]) rfl⟩
    · rename_i hbelow
      split
      · rename_i hempty
        exact ⟨rfl, fun hidle hs => .of_empty hs.range (List.isEmpty_iff.mp hempty) (hs.timer_of_ready hidle hready)⟩
      · rename_i hqueue
        refine ⟨congrArg (fun x => x.win.resetBusy) (startCoalescing_eq _), fun hidle hs => ?_⟩
        exact startCoalescing_inOrder hs.range hidle (not_le.mp hbelow) (fun he => hqueue (List.isEmpty_iff.mpr he)) hdropped
          (hs.timer_of_ready hidle hready)
  · rename_i hclears
    exact .of_eq (dropFlags_signals (Bool.eq_false_iff.mpr hclears))

/-- A write of CQCFG leaves CQ_READY and the timer true to the settings that it stores (R120). -/
theorem configures_keepsSignals {s t : State} {threshold : BitVec 6} {delay : Byte} (h : Configures s t threshold delay)
    (range : ThresholdInRange threshold) : s.signals.Keeps t.signals := by
  have hbusy : t.win.resetBusy = s.win.resetBusy := by rw [h.frame]
  refine ⟨hbusy, fun hidle hs => ?_⟩
  have hqueue : t.signals.cq.queue = s.cq.queue := (congrArg CompletionQueue.queue h.stored :)
  have hthreshold : t.signals.cq.threshold = threshold := (congrArg CompletionQueue.threshold h.stored :)
  have hdelay : t.signals.cq.delay = delay := (congrArg CompletionQueue.delay h.stored :)
  refine ⟨hthreshold ▸ range, fun _ hlow hreach => ?_, fun _ => ?_, fun hb => absurd (hb.symm.trans (hbusy.trans hidle)) (by simp)⟩
  · rw [hqueue] at hlow hreach
    exact (h.flags .cqReady).mpr (.inr ⟨rfl, hlow, hthreshold ▸ hreach⟩)
  · rw [hdelay, hqueue]
    show t.cq.timer.isSome = true ↔ _ ∧ _ ∧ t.flag .cqReady = false
    by_cases hd : delay = 0
    · simp [h.stops (.inl hd), hd]
    by_cases hf : t.flag .cqReady = true
    · have hnone : t.cq.timer = none := by
        cases hclear : s.flag .cqReady with
        | false => exact h.stops (.inr ⟨hclear, hf⟩)
        | true => exact h.rests (hs.timer_of_ready hidle hclear) (.inr hf)
      simp [hnone, hf]
    rw [Bool.not_eq_true] at hf
    by_cases hq : s.cq.queue = []
    · simp [h.rests (hs.timer_of_empty hidle hq) (.inl hq), hq]
    have hclear : s.flag .cqReady = false := by
      rw [Bool.eq_false_iff] at hf ⊢
      exact fun hset => hf ((h.flags .cqReady).mpr (.inl hset))
    have hruns : t.cq.timer.isSome = true := by
      cases ht : s.cq.timer with
      | none => rw [h.starts hd ht hq hf]; rfl
      | some d => rw [h.leaves hd (by rw [ht]; rfl) hclear hf, ht]; rfl
    exact iff_of_true hruns ⟨hd, hq, hf⟩

theorem writeCqcfg_keepsSignals (v : Word) (s : State) : s.signals.Keeps (writeCqcfg v s).signals :=
  configures_keepsSignals (configureQueue_configures s _ _) (storedThreshold_inRange _)

theorem writePlain_signals (r : PlainRegister) (v : Word) (s : State) : (writePlain r v s).signals = s.signals := by
  cases r <;> rfl

theorem execTbloRead_signalled (s : State) : NextSignalled s (execTbloRead s) := by
  refine .of_same ?_
  split <;> rfl

theorem execUndefinedWordAccess_signalled (word : Fin 8) (a : Access) (s : State) : NextSignalled s (execUndefinedWordAccess word a s) := by
  have hraised : (onWindow (fun s => s.raise .windowError) s).signals = s.signals := signals_if fun _ => raise_signals (by simp)
  refine .of_same ?_
  cases a <;> exact hraised

theorem execTimeBaseCount_signalled (s : State) : NextSignalled s (execTimeBaseCount s) := by
  refine .of_same ?_
  split <;> rfl

/-! ### The resets -/

theorem foldl_settleDark_signals (gs : List Seg) (s : State) : (gs.foldl settleDark s).signals = s.signals := by
  induction gs generalizing s with
  | nil => rfl
  | cons g gs ih => exact (ih _).trans (signals_if fun _ => settleIfPowered_signals g s)

/-- RST# leaves the signals of the reset state (R125). -/
theorem rstValues_inOrder (held : Bool) (s : State) : (rstValues held s).signals.InOrder := (signalInv_iff State.reset).mp reset_signalInv

theorem execRstEnd_signalled (s : State) : NextSignalled s (execRstEnd s) := by
  refine ⟨_, rfl, fun hs => ?_⟩
  split
  · rw [foldl_settleDark_signals]; exact rstValues_inOrder false s
  · exact hs

/-- DEVICE_RESET begins: the timer is stopped (R122). -/
theorem execDeviceReset_signalled (s : State) : NextSignalled s (execDeviceReset s) := by
  refine ⟨_, rfl, fun hs => ?_⟩
  unfold onWindow
  split
  · have hbusy : (beginDeviceReset (storeCode Command.deviceReset.code s)).signals.busy ≠ false := Bool.noConfusion
    exact ⟨hs.range, fun hb => absurd hb hbusy, fun hb => absurd hb hbusy, fun _ => rfl⟩
  · exact hs

/-- DEVICE_RESET ends with an empty queue, its settings kept (R126). -/
theorem execDeviceResetEnd_signalled (s : State) : NextSignalled s (execDeviceResetEnd s) := by
  refine ⟨_, rfl, fun hs => ?_⟩
  split
  · rw [endDeviceReset_eq, foldl_settleDark_signals]
    exact .of_empty hs.range rfl rfl
  · exact hs

/-! ### The table port -/

@[simp] theorem accepted_signals (st : TableStatus) (s : State) : (accepted st s).signals = s.signals := rfl

@[simp] theorem refused_signals (st : TableStatus) (s : State) : (refused st s).signals = s.signals := by simp [refused]

@[simp] theorem outOfRange_signals (s : State) : (outOfRange s).signals = s.signals := by simp [outOfRange, setStatus]

theorem execTdataRead_signalled (s : State) : NextSignalled s (execTdataRead s) := by
  refine .of_same ?_
  split
  · unfold tdataRead
    split
    · rfl
    · exact outOfRange_signals s
  · rfl

theorem writeIdentity_signals (k : TargetId) (v : Word) (s : State) : (writeIdentity k v s).signals = s.signals := by
  unfold writeIdentity
  split
  · exact refused_signals _ s
  · rw [accepted_signals, storeIdentity]
    split <;> rfl

theorem writeSlotField_signals (n : SlotId) (i : Nat) (v : Word) (s : State) : (writeSlotField n i v s).signals = s.signals := by
  unfold writeSlotField
  split
  · rfl
  · exact refused_signals _ s

theorem tdataWrite_signals (v : Word) (s : State) : (tdataWrite v s).signals = s.signals := by
  unfold tdataWrite
  split
  · exact writeIdentity_signals _ v s
  · rfl
  · exact writeSlotField_signals _ _ v s
  · rfl
  · rfl
  · rfl
  · exact refused_signals .readOnly s
  · exact refused_signals .readOnly s
  · exact refused_signals .readOnly s
  · exact refused_signals .readOnly s
  · exact refused_signals .readOnly s
  · exact refused_signals .readOnly s
  · exact outOfRange_signals s

theorem execTargetIdentityWrite_signalled (v : Word) (s : State) : NextSignalled s (execTargetIdentityWrite v s) := by
  refine onWindow_signalled_same ?_
  split
  · exact writeIdentity_signals _ v s
  · exact tdataWrite_signals v s

theorem execTargetPolicyWrite_signalled (v : Word) (s : State) : NextSignalled s (execTargetPolicyWrite v s) := by
  refine onWindow_signalled_same ?_
  split
  · rfl
  · exact tdataWrite_signals v s

theorem execSlotFieldWrite_signalled (v : Word) (s : State) : NextSignalled s (execSlotFieldWrite v s) := by
  refine onWindow_signalled_same ?_
  split
  · exact writeSlotField_signals _ _ v s
  · exact tdataWrite_signals v s

theorem execSegmentConfigWrite_signalled (v : Word) (s : State) : NextSignalled s (execSegmentConfigWrite v s) := by
  refine onWindow_signalled_same ?_
  split
  · rfl
  · exact tdataWrite_signals v s

theorem execResponderEntryWrite_signalled (v : Word) (s : State) : NextSignalled s (execResponderEntryWrite v s) := by
  refine onWindow_signalled_same ?_
  split
  · rfl
  · exact tdataWrite_signals v s

theorem execStagingBytesWrite_signalled (v : Word) (s : State) : NextSignalled s (execStagingBytesWrite v s) := by
  refine onWindow_signalled_same ?_
  split
  · rfl
  · exact tdataWrite_signals v s

theorem execReadOnlyTableWrite_signalled (v : Word) (s : State) : NextSignalled s (execReadOnlyTableWrite v s) := by
  refine onWindow_signalled_same ?_
  split
  · split
    · exact refused_signals .readOnly s
    · exact tdataWrite_signals v s
  · exact tdataWrite_signals v s

theorem execTdataWriteOutOfRange_signalled (v : Word) (s : State) : NextSignalled s (execTdataWriteOutOfRange v s) := by
  refine onWindow_signalled_same ?_
  split
  · exact outOfRange_signals s
  · exact tdataWrite_signals v s

/-! ### Every row -/

/-- A write of CMD with the code of a command. -/
theorem writeCommand_signalled (c : Command) (s : State) : NextSignalled s (writeCommand c s) := by
  cases c with
  | allocate => exact runCommand_signalled fun t => .of_eq (allocate_signals t)
  | discard => exact runNumber_signalled fun n t => .of_eq (discard_signals n t)
  | post => exact runNumber_signalled post_keepsSignals
  | abort => exact runNumber_signalled abort_keepsSignals
  | retire => exact runCommand_signalled retire_keepsSignals
  | flushSegment => exact runNumber_signalled flushSegment_keepsSignals
  | offline => exact runNumber_signalled offline_keepsSignals
  | online => exact runNumber_signalled fun g t => .of_eq (online_signals g t)
  | segmentReset => exact runNumber_signalled segmentReset_keepsSignals
  | readmit => exact runNumber_signalled fun k t => .of_eq (readmit_signals k t)
  | releaseInbound => exact runNumber_signalled fun m t => .of_eq (releaseInbound_signals m t)
  | commitOutbound => exact runNumber_signalled fun m t => .of_eq (commitOutbound_signals m t)
  | cancelOutbound => exact runNumber_signalled fun m t => .of_eq (cancelOutbound_signals m t)
  | deviceReset => exact execDeviceReset_signalled s

theorem execUnknownCommand_signalled (code : BitVec 8) (s : State) : NextSignalled s (execUnknownCommand code s) := by
  unfold execUnknownCommand
  split
  · exact runCommand_signalled fun t => .refl _
  · exact writeCommand_signalled _ s

/-- Every row leaves CQ_READY and the coalescing timer true to the queue. -/
theorem exec_signalled (i : Instr) (s : State) : NextSignalled s (exec i s) := by
  cases i with
  | allocate => exact writeCommand_signalled .allocate s
  | discard => exact writeCommand_signalled .discard s
  | post => exact writeCommand_signalled .post s
  | abort => exact writeCommand_signalled .abort s
  | retire => exact writeCommand_signalled .retire s
  | flushSegment => exact writeCommand_signalled .flushSegment s
  | offline => exact writeCommand_signalled .offline s
  | online => exact writeCommand_signalled .online s
  | segmentReset => exact writeCommand_signalled .segmentReset s
  | readmit => exact writeCommand_signalled .readmit s
  | releaseInbound => exact writeCommand_signalled .releaseInbound s
  | commitOutbound => exact writeCommand_signalled .commitOutbound s
  | cancelOutbound => exact writeCommand_signalled .cancelOutbound s
  | deviceReset => exact execDeviceReset_signalled s
  | deviceResetEnd => exact execDeviceResetEnd_signalled s
  | unknownCommand code => exact execUnknownCommand_signalled code s
  | tdataRead => exact execTdataRead_signalled s
  | targetIdentityWrite v => exact execTargetIdentityWrite_signalled v s
  | targetPolicyWrite v => exact execTargetPolicyWrite_signalled v s
  | slotFieldWrite v => exact execSlotFieldWrite_signalled v s
  | segmentConfigWrite v => exact execSegmentConfigWrite_signalled v s
  | responderEntryWrite v => exact execResponderEntryWrite_signalled v s
  | stagingBytesWrite v => exact execStagingBytesWrite_signalled v s
  | readOnlyTableWrite v => exact execReadOnlyTableWrite_signalled v s
  | evtWrite v => exact onWindow_signalled (clearFlags_keepsSignals s v)
  | evtenWrite v => exact onWindow_signalled_same (f := writeEvten v) rfl
  | ctlWrite v => exact onWindow_signalled_same (f := writeCtl v) rfl
  | cqcfgWrite v => exact onWindow_signalled (writeCqcfg_keepsSignals v s)
  | tbloRead => exact execTbloRead_signalled s
  | undefinedWordAccess w a => exact execUndefinedWordAccess_signalled w a s
  | registerWrite r v => exact onWindow_signalled_same (writePlain_signals r v s)
  | rstAssert => exact ⟨_, rfl, fun _ => rstValues_inOrder true s⟩
  | rstEnd => exact execRstEnd_signalled s
  | spgAssert g => exact execSpgAssert_signalled g s
  | spgDeassert g => exact execSpgDeassert_signalled g s
  | settleTimerExpiry g => exact onWire_signalled_same (signals_if fun _ => reachUp_signals g s)
  | glitchTimerExpiry g => exact onWire_signalled (keepsSignals_if fun _ => goDark_keepsSignals g s)
  | headEvaluation g held => exact execHeadEvaluation_signalled g held s
  | engineStart g => exact onWire_signalled_same (signals_if fun _ => sendStart_signals g s)
  | busyTimerExpiry g => exact onWire_signalled (keepsSignals_if fun _ => evaluateFailure_keepsSignals g _ s)
  | stuckDetected g => exact onWire_signalled_same (signals_if fun _ => enterRecovery_signals g s)
  | engineAddressByte g ack => exact execEngineAddressByte_signalled g ack s
  | engineWriteByte g ack => exact execEngineWriteByte_signalled g ack s
  | engineReadByte g b => exact execEngineReadByte_signalled g b s
  | closingStop g => exact execClosingStop_signalled g s
  | stopFailed g => exact execStopFailed_signalled g s
  | markCloseStop g => exact onWire_signalled_same (signals_if fun _ => stopRises_signals g s)
  | offlineCloseStop g => exact onWire_signalled_same (signals_if fun _ => rfl)
  | arbitrationLost g => exact execArbitrationLost_signalled g s
  | stretchTimerExpiry g => exact onWire_signalled_same (signals_if fun _ => rfl)
  | clockReleased g => exact onWire_signalled_same (signals_if fun _ => rfl)
  | releaseTimerExpiry g => exact onWire_signalled (keepsSignals_if fun _ => enterFaulted_keepsSignals g (s.updSeg g _))
  | recoveryPulse g dataHigh => exact execRecoveryPulse_signalled g dataHigh s
  | recoveryStop g rose => exact execRecoveryStop_signalled g rose s
  | backoffTimerExpiry g held => exact onWire_signalled (keepsSignals_if fun _ => beginAttempt_keepsSignals g held s)
  | pollTimerExpiry g held => exact onWire_signalled (keepsSignals_if fun _ => beginAttempt_keepsSignals g held s)
  | coalescingTimerExpiry => exact onWire_signalled (keepsSignals_if fun _ => signalQueue_keepsSignals s)
  | remoteStart g => exact onWire_signalled_same (seeStart_signals g s)
  | remoteAddressByte g b => exact onWire_signalled_same (signals_if fun _ => evaluateAddress_signals g b s)
  | remoteWriteByte g b => exact onWire_signalled_same (signals_if fun _ => receiveByte_signals g _ b s)
  | remoteReadByte g ack => exact onWire_signalled_same (signals_if fun _ => sendByte_signals g ack s)
  | remoteStop g => exact onWire_signalled_same (seeStop_signals g s)
  | remoteRepeatedStart g => exact onWire_signalled_same (seeStart_signals g s)
  | holdTimerExpiry g => exact onWire_signalled_same (signals_if fun _ => serveFill_signals g s)
  | lineChangeOutsideTransfer g line high => exact execLineChangeOutsideTransfer_signalled g line high s
  | timeBaseCount => exact execTimeBaseCount_signalled s
  | tdataWriteOutOfRange v => exact execTdataWriteOutOfRange_signalled v s

/-- Settles O8: a row leaves the signals as they are, appends records, retires one, acts on CQ_READY or on the settings, or resets them; each of
these leaves CQ_READY and the timer true to the queue. -/
theorem everyStepKeepsTheQueueSignalled : Obligations.EveryStepKeepsTheQueueSignalled := by
  intro s t hs h
  rw [signalInv_iff] at hs ⊢
  unfold step at h
  split at h
  · cases h; exact hs
  · rename_i i rest _
    obtain ⟨u, hu, hkeeps⟩ := exec_signalled i { s with pending := rest }
    cases hu.symm.trans h
    exact hkeeps hs

end Sys2Proof.Machine
end

section
/-! SUPPORT. SEGMENT_RESET: the completions of the work that a segment has in hand, and its requalification through DARK (R144, R57, R17). -/

namespace Sys2Proof.Machine

open Sys2Proof.Safety Sys2Proof.Claims

/-! ### A row of completions -/

theorem updEntryOf_updSeg (s : State) (n : SlotId) (e : TargetEntry → TargetEntry) (g : Seg) (f : Segment → Segment) :
    (s.updSeg g f).updEntryOf n e = (s.updEntryOf n e).updSeg g f := by
  unfold State.updEntryOf
  rw [updSeg_targetIndex]
  split <;> rfl

theorem appendRecord_updSeg (s : State) (n : SlotId) (g : Seg) (f : Segment → Segment) :
    (s.updSeg g f).appendRecord n = (s.appendRecord n).updSeg g f := by
  rw [appendRecord_eq, appendRecord_eq, apply_ite (fun x : State => x.updSeg g f), apply_ite (fun x : State => x.updSeg g f)]
  rfl

/-- A completion and a change of a segment do not meet. -/
theorem completeSlot_updSeg (n : SlotId) (st : Status) (s : State) (g : Seg) (f : Segment → Segment) :
    completeSlot n st (s.updSeg g f) = (completeSlot n st s).updSeg g f := by
  unfold completeSlot
  rw [← appendRecord_updSeg, ← updEntryOf_updSeg]
  rfl

theorem foldl_completeSlot_updSeg (st : Status) (ns : List SlotId) (s : State) (g : Seg) (f : Segment → Segment) :
    ns.foldl (fun t n => completeSlot n st t) (s.updSeg g f) = (ns.foldl (fun t n => completeSlot n st t) s).updSeg g f := by
  induction ns generalizing s with
  | nil => rfl
  | cons n ns ih => rw [List.foldl_cons, List.foldl_cons, completeSlot_updSeg, ih]

theorem completeActive_eq_foldl (g : Seg) (st : Status) (s : State) :
    completeActive g st s = (s.engine g).active.toList.foldl (fun t n => completeSlot n st t) s := by
  unfold completeActive
  cases (s.engine g).active <;> rfl

theorem completeSlot_timeBase (n : SlotId) (st : Status) (s : State) : (completeSlot n st s).ev.timeBase = s.ev.timeBase := by
  rw [(completeSlot_completes s n st).2.1.1]

/-- The slots after a row of completions. -/
theorem foldl_completeSlot_slot (st : Status) (ns : List SlotId) (s : State) (m : SlotId) :
    (ns.foldl (fun t n => completeSlot n st t) s).slot m =
      if m ∈ ns then { s.slot m with state := .done, outcome := .completed st, completionTime := s.ev.timeBase } else s.slot m := by
  induction ns generalizing s with
  | nil => simp
  | cons n ns ih =>
    rw [List.foldl_cons, ih, completeSlot_timeBase, completeSlot_slot]
    by_cases hm : m = n
    · subst hm; simp
    · simp [hm]

/-- An entry after a number of completions that name it have lowered its count. -/
def TargetEntry.ended (e : TargetEntry) (count : Nat) (st : Status) : TargetEntry :=
  { e with refCount := e.refCount - count, lastFinal := if 0 < count then some st else e.lastFinal }

theorem TargetEntry.ended_succ (e : TargetEntry) (count : Nat) (st : Status) :
    ({ e with refCount := e.refCount - 1, lastFinal := some st } : TargetEntry).ended count st = e.ended (count + 1) st := by
  simp [TargetEntry.ended, Nat.sub_sub, Nat.add_comm]

/-- The entries after a row of completions. -/
theorem foldl_completeSlot_target (st : Status) (ns : List SlotId) (s : State) (k : TargetId) :
    (ns.foldl (fun t n => completeSlot n st t) s).target k =
      (s.target k).ended (ns.countP (fun m => decide (s.targetIndex m = some k))) st := by
  induction ns generalizing s with
  | nil => rfl
  | cons n ns ih =>
    rw [List.foldl_cons, ih, completeSlot_target]
    simp only [completeSlot_targetIndex]
    by_cases hk : s.targetIndex n = some k
    · rw [if_pos hk, List.countP_cons_of_pos (by simpa using hk), TargetEntry.ended_succ]
    · rw [if_neg hk, List.countP_cons_of_neg (by simpa using hk)]

/-- A row of completions changes nothing beside the work and CQ_READY. -/
theorem foldl_completeSlot_frame (st : Status) (ns : List SlotId) (s : State) :
    RaisesBesideReady s (ns.foldl (fun t n => completeSlot n st t) s) [] ∧
      ns.foldl (fun t n => completeSlot n st t) s =
        { s with
          slots := (ns.foldl (fun t n => completeSlot n st t) s).slots, targets := (ns.foldl (fun t n => completeSlot n st t) s).targets
          cq := (ns.foldl (fun t n => completeSlot n st t) s).cq, ev := (ns.foldl (fun t n => completeSlot n st t) s).ev } := by
  induction ns generalizing s with
  | nil => exact ⟨⟨rfl, by simp⟩, rfl⟩
  | cons n ns ih =>
    obtain ⟨-, ⟨hev, hflags⟩, hframe⟩ := completeSlot_completes s n st
    obtain ⟨⟨hevs, hflagss⟩, hframes⟩ := ih (completeSlot n st s)
    refine ⟨⟨?_, fun e he => (hflagss e he).trans (by simp [hflags e he])⟩, ?_⟩
    · rw [List.foldl_cons, hevs, hev]
    · rw [List.foldl_cons, hframes, hframe]

/-! ### The segment without its work -/

/-- The slots that segment g has in hand, in post order: its active slot, then its list (R43). -/
def State.inHand (s : State) (g : Seg) : List SlotId := (s.engine g).active.toList ++ (s.seg g).list

/-- Every slot that g has in hand completes RESET, in post order (R57). -/
def completeInHand (g : Seg) (s : State) : State := (s.inHand g).foldl (fun t n => completeSlot n .reset t) s

/-- A segment without its lines, its work, its timers and its glitch count (R144). -/
def emptied (x : Segment) : Segment :=
  { x with gate := .released, known := false, settleTimer := none, glitchTimer := none, glitchCount := 0, list := [], engine := {} }

theorem completeInHand_eq (g : Seg) (s : State) :
    completeInHand g s = (s.seg g).list.foldl (fun t n => completeSlot n .reset t) (completeActive g .reset s) := by
  rw [completeInHand, State.inHand, List.foldl_append, completeActive_eq_foldl]

theorem completeActive_updSeg {g : Seg} {f : Segment → Segment} (st : Status) (s : State)
    (h : (f (s.seg g)).engine.active = (s.engine g).active) :
    completeActive g st (s.updSeg g f) = (completeActive g st s).updSeg g f := by
  rw [completeActive_eq_foldl, completeActive_eq_foldl, ← foldl_completeSlot_updSeg, State.engine, updSeg_seg, if_pos rfl, h]

theorem resetList_updSeg {g : Seg} {f : Segment → Segment} (s : State) (h : (f (s.seg g)).list = (s.seg g).list) :
    resetList g (s.updSeg g f) =
      ((s.seg g).list.foldl (fun t n => completeSlot n .reset t) s).updSeg g (fun x => { f x with list := [] }) := by
  rw [resetList, updSeg_seg, if_pos rfl, h, foldl_completeSlot_updSeg, updSeg_updSeg]

/-- The completions of SEGMENT_RESET come first, and what it clears of the segment after them. -/
theorem clearSegment_eq (g : Seg) (s : State) : clearSegment g s = endContext g ((completeInHand g s).updSeg g emptied) := by
  have hdrained : resetList g (idleEngine g (completeActive g .reset (releaseLines g s))) =
      (completeInHand g s).updSeg g (fun x => { x with gate := .released, known := false, engine := {}, list := [] }) := by
    rw [releaseLines, completeActive_updSeg .reset s rfl, idleEngine, State.updEngine, updSeg_updSeg, resetList_updSeg _ rfl,
      completeActive_seg, completeInHand_eq]
  rw [clearSegment, hdrained, stopQualifier, updSeg_updSeg, updSeg_updSeg]
  rfl

/-! ### What SEGMENT_RESET leaves -/

/-- From s to t the work that segment g had in hand has completed RESET, its context has been cut off, and it stands as x, with the flags fs
beside CQ_READY and INBOUND_LOST (R144, R57, R167). -/
structure ClearsWork (s t : State) (g : Seg) (x : Segment) (fs : List EventFlag) : Prop where
  slots : ∀ m : SlotId, t.slot m =
    if m ∈ s.inHand g then { s.slot m with state := .done, outcome := .completed .reset, completionTime := s.ev.timeBase } else s.slot m
  appends : AppendsAll s t (s.inHand g)
  entries : ∀ k : TargetId, t.target k = (s.target k).ended ((s.inHand g).countP (fun m => decide (s.targetIndex m = some k))) .reset
  context : EndsContext s t g
  segment : OnlySegment s t g x
  flags : ∀ e : EventFlag, e ≠ .cqReady → e ≠ .inboundLost → (t.flag e = true ↔ s.flag e = true ∨ e ∈ fs)
  events : t.ev = { s.ev with flags := t.ev.flags }
  rest : t.win = s.win ∧ t.entries = s.entries ∧ t.rstHeld = s.rstHeld ∧ t.pending = s.pending

theorem clearSegment_clearsWork (g : Seg) (s : State) :
    ClearsWork s (clearSegment g s) g { emptied (s.seg g) with ctx := { phase := .listen } } [] := by
  obtain ⟨⟨hev, hflags⟩, hframe⟩ := foldl_completeSlot_frame .reset (s.inHand g) s
  have happends := foldl_completeSlot_appendsAll .reset (s.inHand g) s
  have hslots := foldl_completeSlot_slot .reset (s.inHand g) s
  have hentries := foldl_completeSlot_target .reset (s.inHand g) s
  obtain ⟨u, hu⟩ : ∃ u, u = completeInHand g s := ⟨_, rfl⟩
  rw [← completeInHand, ← hu] at hev hflags hframe happends hslots hentries
  have hu' : ∀ {α : Type} (p : State → α), p u = p { s with slots := u.slots, targets := u.targets, cq := u.cq, ev := u.ev } :=
    fun p => congrArg p hframe
  have hseg : ∀ j, u.seg j = s.seg j := fun j => hu' (State.seg · j)
  have hlost : u.flag .inboundLost = s.flag .inboundLost := by rw [Bool.eq_iff_iff, hflags _ (by simp)]; simp
  obtain ⟨hcontext, honly, ⟨hevents, hkept⟩, hrest⟩ := endContext_spec g (u.updSeg g emptied)
  have hrest' := fun {α : Type} (p : State → α) => congrArg p hrest
  rw [clearSegment_eq, ← hu]
  refine ⟨fun m => (hrest' (State.slot · m)).trans (hslots m), ?_, fun k => (hrest' (State.target · k)).trans (hentries k), ?_,
    ⟨?_, fun j hj => ?_⟩, fun e hready hlost => ?_, ?_, (hrest' State.win).trans (hu' State.win),
    (hrest' State.entries).trans (hu' State.entries), (hrest' State.rstHeld).trans (hu' State.rstHeld), (hrest' State.pending).trans (hu' State.pending)⟩
  · exact appendsAll_congr happends rfl rfl rfl (hrest' State.cq) (hkept .cqReady (by simp))
  · refine endsContext_congr hcontext ?_ (hu' State.boxes).symm hlost.symm rfl rfl
    rw [State.ctx, State.ctx, updSeg_seg, if_pos rfl, hseg]
    rfl
  · rw [honly.1, updSeg_seg, if_pos rfl, hseg]
  · rw [honly.2 j hj, updSeg_seg, if_neg hj, hseg]
  · rw [hkept e hlost, updSeg_flag, hflags e hready]
  · rw [hevents]
    exact congrArg (fun x : EventUnit => { x with flags := (endContext g (u.updSeg g emptied)).ev.flags }) hev

/-- The segment enters another state, with SEGn_CHANGE. -/
theorem ClearsWork.change {s t : State} {g : Seg} {x : Segment} {fs : List EventFlag} (h : ClearsWork s t g x fs) (f : Segment → Segment) :
    ClearsWork s ((t.updSeg g f).raise (.segChange g)) g (f x) (.segChange g :: fs) where
  slots := h.slots
  appends := appendsAll_congr h.appends rfl rfl rfl rfl (by simp)
  entries := h.entries
  context := endsContext_congr h.context rfl rfl rfl rfl (by simp)
  segment := ⟨by rw [raise_seg, updSeg_seg, if_pos rfl, h.segment.1], fun j hj => by rw [raise_seg, updSeg_seg, if_neg hj, h.segment.2 j hj]⟩
  flags e hready hlost := by
    rw [flag_raise, updSeg_flag, Bool.or_eq_true, h.flags e hready hlost, List.mem_cons]
    simp only [decide_eq_true_eq]
    tauto
  events := congrArg (fun x : EventUnit => { x with flags := ((t.updSeg g f).raise (.segChange g)).ev.flags }) h.events
  rest := h.rest

/-- The segment that SEGMENT_RESET leaves: an OFFLINE one stays so, and every other is DARK, or SETTLING where its power is good (R144). -/
def resetSegment (x : Segment) : Segment :=
  let cleared : Segment := { emptied x with ctx := { phase := .listen } }
  let dark : Segment := { cleared with state := .dark, downMode := latchedMode x.config.lossPolicy }
  if x.state = .offline then cleared else if x.spg then settling dark else dark

theorem latched_eq (s : State) (g : Seg) : s.latched g = latchedMode (s.seg g).config.lossPolicy := by
  unfold State.latched LossPolicy.downMode latchedMode
  rfl

theorem settleIfPowered_eq (g : Seg) (s : State) :
    settleIfPowered g s = if (s.seg g).spg then (s.updSeg g settling).raise (.segChange g) else s := rfl

/-- SEGMENT_RESET clears the segment, which then requalifies unless it is OFFLINE (R144). -/
theorem segmentReset_clearsWork (g : Seg) (s : State) :
    ∃ fs : List EventFlag, (∀ e, e ∈ fs ↔ e = .segChange g ∧ (s.seg g).state ≠ .offline) ∧
      ClearsWork s (segmentReset g s).state g (resetSegment (s.seg g)) fs := by
  have hclear := clearSegment_clearsWork g s
  unfold segmentReset resetSegment
  dsimp only [accept]
  by_cases hoff : (s.seg g).state = .offline
  · rw [if_pos hoff, if_pos hoff]
    exact ⟨[], by simp [hoff], hclear⟩
  · have hdark : ClearsWork s (enterState g .dark (s.latched g) (clearSegment g s)) g _ [.segChange g] := hclear.change _
    have hpower : ((enterState g .dark (s.latched g) (clearSegment g s)).seg g).spg = (s.seg g).spg := by rw [hdark.segment.1]; rfl
    rw [if_neg hoff, if_neg hoff, settleIfPowered_eq, hpower, ← latched_eq]
    split
    · exact ⟨_, by simp [hoff], hdark.change settling⟩
    · exact ⟨_, by simp [hoff], hdark⟩

/-- An entry takes a last final status exactly when a slot of the row names it. -/
theorem TargetEntry.ended_eq (e : TargetEntry) (s : State) (k : TargetId) (ns : List SlotId) (st : Status) :
    e.ended (ns.countP (fun m => decide (s.targetIndex m = some k))) st =
      { e with
        refCount := e.refCount - ns.countP (fun m => decide (s.targetIndex m = some k))
        lastFinal := if ∃ m ∈ ns, s.targetIndex m = some k then some st else e.lastFinal } := by
  simp only [TargetEntry.ended, List.countP_pos_iff, decide_eq_true_eq]

theorem mem_inHand {s : State} {g : Seg} {m : SlotId} : m ∈ s.inHand g ↔ (s.engine g).active = some m ∨ m ∈ (s.seg g).list := by
  simp [State.inHand]

/-- Settles O21: the slots in hand complete in post order, then the segment is cleared and requalifies. -/
theorem segmentResetClearsTheWork : Obligations.SegmentResetClearsTheWork := by
  intro s g _ ho hn
  obtain ⟨u, hu⟩ : ∃ u, u = (segmentReset g (storeCode Command.segmentReset.code s)).state := ⟨_, rfl⟩
  obtain ⟨fs, hfs, hreset⟩ := segmentReset_clearsWork g (storeCode Command.segmentReset.code s)
  rw [← hu] at hreset
  obtain ⟨hwin, hentries, hrst, hpending⟩ := hreset.rest
  have hreply : segmentReset g (storeCode Command.segmentReset.code s) = accept u (s.inHand g).length := by
    rw [State.inHand, List.length_append, hu]
    rfl
  have hrun := (runCommand_number hn).trans (runCommand_accept ho hreply)
  refine ⟨_, congrArg Host.Outcome.next hrun, ?_, fun m => ?_, ?_, fun k => ?_, ?_, hreset.segment, fun e hready hlost => ?_, ?_⟩
  · rw [updWin_win, hwin]
    rfl
  · rw [updWin_slot, hreset.slots m]
    exact if_congr mem_inHand rfl rfl
  · exact appendsAll_congr hreset.appends rfl rfl rfl rfl rfl
  · rw [updWin_target, hreset.entries k]
    exact TargetEntry.ended_eq _ s k (s.inHand g) .reset
  · exact endsContext_congr hreset.context rfl rfl rfl rfl rfl
  · rw [updWin_flag, hreset.flags e hready hlost, hfs]
    rfl
  · exact state_ext rfl hreset.events rfl rfl rfl rfl hentries rfl hrst hpending

end Sys2Proof.Machine
end

section
/-! SUPPORT. The states of a segment and its power: the ways out of service, OFFLINE and ONLINE, and the edges of SPGn with the expiries of the
qualifier's timers (chapter 7). -/

namespace Sys2Proof.Machine

open Sys2Proof.Claims

/-! ### Leaving service -/

/-- Segment g leaves service: its active slot completes with a status, the segment changes by f with SEGn_CHANGE, and its context is cut off
(R129, R141). -/
def leaveService (g : Seg) (st : Status) (f : Segment → Segment) (s : State) : State :=
  endContext g (((completeActive g st s).updSeg g f).raise (.segChange g))

theorem leaveService_spec {g : Seg} {f : Segment → Segment} {s : State} (st : Status) (hctx : (f (s.seg g)).ctx = s.ctx g) :
    Departs s (leaveService g st f s) g { f (s.seg g) with ctx := { phase := .listen } } st [.segChange g] ∧
      leaveService g st f s =
        { s with
          ev := (leaveService g st f s).ev, cq := (leaveService g st f s).cq, slots := (leaveService g st f s).slots
          targets := (leaveService g st f s).targets, segs := (leaveService g st f s).segs, boxes := (leaveService g st f s).boxes } := by
  obtain ⟨u, hu⟩ : ∃ u, u = completeActive g st s := ⟨_, rfl⟩
  obtain ⟨hends, ⟨hev, hflags⟩, hframe⟩ := completeActive_spec g st s
  rw [← hu] at hends hev hflags hframe
  have hu' := fun {α : Type} (p : State → α) => congrArg p hframe
  have hseg : ∀ j, u.seg j = s.seg j := fun j => hu' (State.seg · j)
  obtain ⟨hcontext, honly, ⟨hevents, hkept⟩, hrest⟩ := endContext_spec g ((u.updSeg g f).raise (.segChange g))
  have hrest' := fun {α : Type} (p : State → α) => congrArg p hrest
  unfold leaveService
  rw [← hu]
  refine ⟨⟨?_, ?_, ⟨?_, fun e hready hlost => ?_⟩, ?_, fun j hj => ?_⟩, ?_⟩
  · exact endsActive_congr hends rfl rfl rfl rfl rfl (hrest' State.slots) (hrest' State.targets) (hrest' State.cq)
      ((hkept .cqReady (by simp)).trans (by simp))
  · refine endsContext_congr hcontext ?_ (hu' State.boxes).symm ?_ rfl rfl
    · simp [State.ctx, hseg, hctx]
    · rw [flag_raise, updSeg_flag, Bool.eq_iff_iff, Bool.or_eq_true, hflags .inboundLost (by simp)]
      simp
  · rw [hevents]
    exact congrArg (fun x : EventUnit => { x with flags := (endContext g ((u.updSeg g f).raise (.segChange g))).ev.flags }) hev
  · rw [hkept e hlost, flag_raise, updSeg_flag, Bool.or_eq_true, hflags e hready]
    simp
  · rw [honly.1, raise_seg, updSeg_seg, if_pos rfl, hseg]
  · rw [honly.2 j hj, raise_seg, updSeg_seg, if_neg hj, hseg]
  · exact state_ext ((hrest' State.win).trans (hu' State.win)) rfl rfl rfl rfl rfl ((hrest' State.entries).trans (hu' State.entries)) rfl
      ((hrest' State.rstHeld).trans (hu' State.rstHeld)) ((hrest' State.pending).trans (hu' State.pending))

/-- A change of the segment that leaves its active slot may come before the departure or with it. -/
theorem leaveService_updSeg {g : Seg} {h : Segment → Segment} {s : State} (st : Status) (f : Segment → Segment)
    (hactive : (h (s.seg g)).engine.active = (s.engine g).active) :
    leaveService g st f (s.updSeg g h) = leaveService g st (fun x => f (h x)) s := by
  unfold leaveService
  rw [completeActive_updSeg st s hactive, updSeg_updSeg]

/-- A departure is the way out of service with the lines released and the engine IDLE (R129). -/
theorem depart_eq (g : Seg) (dest : SegState) (dm : DownMode) (st : Status) (s : State) :
    depart g dest dm st s =
      leaveService g st (fun x => { x with gate := .released, known := false, engine := {}, state := dest, downMode := dm }) s := by
  unfold depart releaseLines
  rw [completeActive_updSeg st s rfl, idleEngine, State.updEngine, enterState, updSeg_updSeg, updSeg_updSeg]
  rfl

theorem departs_updWin {s t : State} {g : Seg} {x : Segment} {st : Status} {fs : List EventFlag} (a b : Window → Window)
    (h : Departs s t g x st fs) : Departs (s.updWin a) (t.updWin b) g x st fs where
  active := endsActive_congr h.active rfl rfl rfl rfl rfl rfl rfl rfl rfl
  context := endsContext_congr h.context rfl rfl rfl rfl rfl
  flags := h.flags
  segment := h.segment

/-! ### OFFLINE -/

/-- A segment with engine e that OFFLINE has taken out of service: the engine sends one stop where it holds the bus and the clock is not held
low, and is else IDLE with the lines released (R88, R141). -/
def wentOffline (e : Engine) (mode : DownMode) (x : Segment) : Segment :=
  if HoldsBus e ∧ ¬ ClockHeld e then
    { x with
      state := .offline, downMode := mode, settleTimer := none, glitchTimer := none, gate := .connected, known := false
      engine := closingEngine e .offline false }
  else
    { x with
      state := .offline, downMode := mode, settleTimer := none, glitchTimer := none, gate := .released, known := false, engine := {} }

theorem wentOffline_ctx (e : Engine) (mode : DownMode) (x : Segment) : (wentOffline e mode x).ctx = x.ctx := by
  unfold wentOffline
  split <;> rfl

theorem closeForOffline_eq (g : Seg) (e : Engine) (mode : DownMode) (s : State) :
    enterState g .offline mode (closeForOffline g e (stopQualifier g s)) =
      (s.updSeg g (wentOffline e mode)).raise (.segChange g) := by
  have hstop : (e.holdsBus && !e.clockHeld) = true ↔ HoldsBus e ∧ ¬ ClockHeld e := by
    rw [Bool.and_eq_true, holdsBus_iff, Bool.not_eq_true', Bool.eq_false_iff, ne_eq, clockHeld_iff]
  unfold closeForOffline
  by_cases h : HoldsBus e ∧ ¬ ClockHeld e
  · rw [if_pos (hstop.mpr h), stopQualifier, enterState, updSeg_updSeg, updSeg_updSeg]
    exact congrArg (fun f => (s.updSeg g f).raise (.segChange g)) (funext fun x => (if_pos h).symm)
  · rw [if_neg (mt hstop.mp h), stopQualifier, releaseLines, idleEngine, State.updEngine, enterState, updSeg_updSeg, updSeg_updSeg,
      updSeg_updSeg]
    exact congrArg (fun f => (s.updSeg g f).raise (.segChange g)) (funext fun x => (if_neg h).symm)

/-- OFFLINE of a segment in service (R141). -/
theorem offline_inService {g : Seg} {s : State} (h : (s.seg g).state = .up ∨ (s.seg g).state = .recovering) :
    offline g s = accept (leaveService g .segmentDown (wentOffline (s.engine g) s.argMode) s) g.val := by
  have hstop : completeActive g .segmentDown (stopQualifier g s) = stopQualifier g (completeActive g .segmentDown s) :=
    completeActive_updSeg .segmentDown s rfl
  unfold offline leaveService
  rw [hstop, closeForOffline_eq]
  obtain h | h := h <;> rw [h]

/-- OFFLINE of a segment that is out of service, and not OFFLINE, abandons its timers (R141). -/
theorem offline_outOfService {g : Seg} {s : State}
    (h : (s.seg g).state = .dark ∨ (s.seg g).state = .settling ∨ (s.seg g).state = .faulted) :
    offline g s = accept ((s.updSeg g (fun x => { x with
      settleTimer := none, glitchTimer := none, state := .offline, downMode := s.argMode })).raise (.segChange g)) g.val := by
  have hstop : enterState g .offline s.argMode (stopQualifier g s) = (s.updSeg g (fun x => { x with
      settleTimer := none, glitchTimer := none, state := .offline, downMode := s.argMode })).raise (.segChange g) := by
    rw [stopQualifier, enterState, updSeg_updSeg]
  rw [← hstop]
  unfold offline
  obtain h | h | h := h <;> rw [h]

/-- OFFLINE of an OFFLINE segment latches the mode alone (R142). -/
theorem offline_offline {g : Seg} {s : State} (h : (s.seg g).state = .offline) :
    offline g s = accept (s.updSeg g (fun x => { x with downMode := s.argMode })) g.val := by
  unfold offline
  rw [h]

/-- The row of a command on segment g that is accepted. -/
theorem exec_accept {i : Instr} {code : BitVec 8} {f : Seg → State → Reply} {s u : State} {g : Seg}
    (hexec : exec i s = .next (runCommand code (withNumber 6 f) s)) (ho : s.windowOpen = true) (hn : s.argNumber = g.val)
    (h : f g (storeCode code s) = accept u g.val) : exec i s = .next (u.updWin (CmdResult.done.put g.val)) :=
  hexec.trans (congrArg Host.Outcome.next ((runCommand_number hn).trans (runCommand_accept ho h)))

/-- Settles O19: OFFLINE by the state of the segment, and out of service by whether the engine can send a stop. -/
theorem offlineLeavesService : Obligations.OfflineLeavesService := by
  refine ⟨fun s g ho hn => ⟨fun h => ?_, fun h => ?_⟩, fun s g ho hn h => ?_⟩
  · exact ⟨_, exec_accept rfl ho hn (offline_outOfService (s := storeCode _ s) h), rfl, raises_congr (raises_raise s (.segChange g)) rfl rfl,
      onlySegment_congr (onlySegment_updSeg s g fun x => { x with
        settleTimer := none, glitchTimer := none, state := .offline, downMode := s.argMode }) rfl rfl, rfl⟩
  · exact ⟨_, exec_accept rfl ho hn (offline_offline (s := storeCode _ s) h), rfl,
      onlySegment_congr (onlySegment_updSeg s g fun x => { x with downMode := s.argMode }) rfl rfl, rfl⟩
  · obtain ⟨hdeparts, hframe⟩ := leaveService_spec (s := storeCode Command.offline.code s) .segmentDown
      (wentOffline_ctx (s.engine g) s.argMode (s.seg g))
    have hdeparts' := departs_updWin (fun _ => s.win) (CmdResult.done.put g.val) hdeparts
    have hfield := fun {α : Type} (p : State → α) => congrArg p hframe
    refine ⟨_, exec_accept rfl ho hn (offline_inService h), congrArg (CmdResult.done.put g.val) (hfield State.win), fun hstop => ?_,
      fun hstop => ?_, ?_⟩
    · rw [wentOffline, if_pos hstop] at hdeparts'
      exact hdeparts'
    · rw [wentOffline, if_neg hstop] at hdeparts'
      exact hdeparts'
    · exact state_ext rfl rfl rfl rfl rfl rfl (hfield State.entries) rfl (hfield State.rstHeld) (hfield State.pending)

/-! ### ONLINE -/

/-- ONLINE of an OFFLINE segment (R143). -/
theorem online_offline {g : Seg} {s : State} (h : (s.seg g).state = .offline) :
    online g s = accept (settleIfPowered g ((s.updSeg g fun x => { x with
      state := .dark, downMode := latchedMode (s.seg g).config.lossPolicy, gate := .released, known := false, engine := {} }).raise
        (.segChange g))) g.val := by
  unfold online
  rw [if_pos h, releaseLines, idleEngine, State.updEngine, enterState, updSeg_updSeg, updSeg_updSeg, latched_eq]

/-- A flag that is set again. -/
theorem raises_again {s t : State} {e : EventFlag} (h : Raises s t [e]) : Raises s (t.raise e) [e] :=
  ⟨congrArg (fun x : EventUnit => { x with flags := (t.raise e).ev.flags }) h.1, fun f => by simp [h.2 f]⟩

/-- A segment that goes on to SETTLING where its power is good, with SEGn_CHANGE set before (R131). -/
theorem settleIfPowered_spec {g : Seg} {s t : State} {x : Segment} (hr : Raises s t [.segChange g]) (hx : OnlySegment s t g x) :
    Raises s (settleIfPowered g t) [.segChange g] ∧ OnlySegment s (settleIfPowered g t) g (if x.spg then settling x else x) ∧
      settleIfPowered g t = { t with ev := (settleIfPowered g t).ev, segs := (settleIfPowered g t).segs } := by
  rw [settleIfPowered_eq, hx.1]
  split
  · exact ⟨raises_again (raises_congr hr rfl rfl), hx.1 ▸ onlySegment_trans hx (onlySegment_updSeg t g settling), rfl⟩
  · exact ⟨hr, hx, rfl⟩

theorem onlySegment_updSeg_raise (s : State) (g : Seg) (f : Segment → Segment) (e : EventFlag) :
    OnlySegment s ((s.updSeg g f).raise e) g (f (s.seg g)) :=
  onlySegment_congr (onlySegment_updSeg s g f) rfl rfl

/-- Settles O20: by whether the segment is OFFLINE; it enters DARK, and from there SETTLING where its power is good. -/
theorem onlineRequalifies : Obligations.OnlineRequalifies := by
  refine fun s g ho hn => ⟨fun h => ?_, fun h => ?_⟩
  · have hrefuse : online g (storeCode Command.online.code s) = refuse (storeCode Command.online.code s) .badArgument g.val := if_neg h
    exact ⟨_, congrArg Host.Outcome.next (runCommand_number hn), runCommand_refused ho hrefuse (by simp)⟩
  · obtain ⟨hraises, honly, hframe⟩ := settleIfPowered_spec (raises_updSeg_raise (storeCode Command.online.code s) g _ _)
      (onlySegment_updSeg_raise (storeCode Command.online.code s) g (fun x => { x with
        state := .dark, downMode := latchedMode (s.seg g).config.lossPolicy, gate := .released, known := false, engine := {} }) (.segChange g))
    have hfield := fun {α : Type} (p : State → α) => congrArg p hframe
    refine ⟨_, exec_accept rfl ho hn (online_offline h), congrArg (CmdResult.done.put g.val) (hfield State.win), raises_congr hraises rfl rfl,
      onlySegment_congr honly rfl rfl, ?_⟩
    exact state_ext rfl rfl (hfield State.cq) (hfield State.slots) (hfield State.targets) rfl (hfield State.entries) (hfield State.boxes)
      (hfield State.rstHeld) (hfield State.pending)

/-! ### The power qualifier -/

theorem exec_spgAssert {g : Seg} {s : State} (h : (s.seg g).spg = false) :
    exec (.spgAssert g) s = .next (onWire (assertPower g) (recordLevel g true s)) :=
  congrArg Host.Outcome.next (if_neg (by simp [h]))

theorem exec_spgDeassert {g : Seg} {s : State} (h : (s.seg g).spg = true) :
    exec (.spgDeassert g) s = .next (onWire (deassertPower g) (recordLevel g false s)) :=
  congrArg Host.Outcome.next (if_pos h)

/-- While a reset is under way the wire changes nothing (R148, R149). -/
theorem onWire_not_live {f : State → State} {s : State} (h : s.live = false) : onWire f s = s := by
  simp [onWire, h]

@[simp] theorem recordLevel_seg (g : Seg) (level : Bool) (s : State) : (recordLevel g level s).seg g = { s.seg g with spg := level } := by
  simp [recordLevel]

theorem onWire_recordLevel {f : State → State} {s : State} (g : Seg) (level : Bool) (hl : s.live = true) :
    onWire f (recordLevel g level s) = f (recordLevel g level s) :=
  onWire_live f hl

theorem onlySegment_recordLevel (g : Seg) (level : Bool) (s : State) :
    OnlySegment s (recordLevel g level s) g { s.seg g with spg := level } :=
  onlySegment_updSeg s g _

theorem assertPower_dark {g : Seg} {s : State} (h : (s.seg g).state = .dark) : assertPower g s = settleIfPowered g s := by
  unfold assertPower
  rw [h]

/-- A reassertion during a glitch watch (R134). -/
theorem assertPower_watched {g : Seg} {s : State} (hw : (s.seg g).glitchTimer.isSome = true)
    (h : (s.seg g).state = .up ∨ (s.seg g).state = .recovering ∨ (s.seg g).state = .faulted) : assertPower g s = ignoreGlitch g s := by
  unfold assertPower
  obtain h | h | h := h <;> rw [h] <;> exact if_pos hw

theorem assertPower_offline {g : Seg} {s : State} (h : (s.seg g).state = .offline) : assertPower g s = s := by
  unfold assertPower
  rw [h]

theorem deassertPower_settling {g : Seg} {s : State} (h : (s.seg g).state = .settling) :
    deassertPower g s = enterState g .dark (s.latched g) (stopQualifier g s) := by
  unfold deassertPower
  rw [h]

/-- A deassertion in a state whose power is watched (R133). -/
theorem deassertPower_watched {g : Seg} {s : State}
    (h : (s.seg g).state = .up ∨ (s.seg g).state = .recovering ∨ (s.seg g).state = .faulted) :
    deassertPower g s = if (s.seg g).config.glitchWindow = 0 then goDark g s else startGlitchWatch g s := by
  unfold deassertPower
  obtain h | h | h := h <;> rw [h]

theorem deassertPower_down {g : Seg} {s : State} (h : (s.seg g).state = .offline ∨ (s.seg g).state = .dark) : deassertPower g s = s := by
  unfold deassertPower
  obtain h | h := h <;> rw [h]

/-- A glitch count saturates at 255 (R134). -/
theorem ignoreGlitch_eq (g : Seg) (s : State) : ignoreGlitch g s = s.updSeg g (fun x => { x with
    glitchTimer := none, glitchCount := if x.glitchCount < 255 then x.glitchCount + 1 else 255 }) := by
  refine congrArg (s.updSeg g) (funext fun x => ?_)
  have : min (x.glitchCount + 1) Config.maxGlitchCount = if x.glitchCount < 255 then x.glitchCount + 1 else 255 := by
    unfold Config.maxGlitchCount
    split <;> omega
  rw [this]

/-- Settles O41: the edge is recorded first, and then moves the segment by its state. -/
theorem powerQualifier : Obligations.PowerQualifier := by
  refine ⟨fun s g hp => ⟨_, exec_spgAssert hp, fun hl hd => ?_, fun hl hup hw => ?_, fun h => ?_⟩,
    fun s g hp => ⟨_, exec_spgDeassert hp, fun hl hd => ?_, fun hl hup hw => ?_, fun h => ?_⟩, fun s g hl hs ht => ?_⟩
  · rw [onWire_recordLevel _ _ hl, assertPower_dark (by simp [hd])]
    rw [settleIfPowered_eq, if_pos (by simp), recordLevel, updSeg_updSeg]
    exact ⟨raises_updSeg_raise s g _ _, onlySegment_updSeg_raise s g (fun x => settling { x with spg := true }) _, rfl⟩
  · rw [onWire_recordLevel _ _ hl, assertPower_watched (by simpa using hw) (by simpa using hup), ignoreGlitch_eq, recordLevel, updSeg_updSeg]
    exact ⟨onlySegment_updSeg s g _, rfl⟩
  · have : onWire (assertPower g) (recordLevel g true s) = recordLevel g true s := by
      obtain hl | hoff := h
      · exact onWire_not_live hl
      · unfold onWire
        rw [assertPower_offline (by simp [hoff]), ite_self]
    rw [this]
    exact ⟨onlySegment_recordLevel g true s, rfl⟩
  · rw [onWire_recordLevel _ _ hl, deassertPower_settling (by simp [hd]), latched_eq, recordLevel_seg, stopQualifier, enterState, recordLevel,
      updSeg_updSeg, updSeg_updSeg]
    exact ⟨raises_updSeg_raise s g _ _, onlySegment_updSeg_raise s g _ _, rfl⟩
  · rw [onWire_recordLevel _ _ hl, deassertPower_watched (by simpa using hup), if_neg (by simpa using hw), startGlitchWatch, recordLevel,
      updSeg_updSeg]
    exact ⟨onlySegment_updSeg s g _, rfl⟩
  · have : onWire (deassertPower g) (recordLevel g false s) = recordLevel g false s := by
      obtain hl | hdown := h
      · exact onWire_not_live hl
      · unfold onWire
        rw [deassertPower_down (by simpa using hdown), ite_self]
    rw [this]
    exact ⟨onlySegment_recordLevel g false s, rfl⟩
  · refine ⟨_, congrArg Host.Outcome.next (onWire_taken hl ⟨ht, hs⟩), ?_⟩
    rw [reachUp, enterState, updSeg_updSeg]
    exact ⟨raises_updSeg_raise s g _ _, onlySegment_updSeg_raise s g _ _, rfl⟩

/-! ### The loss of power -/

/-- A loss of power is the way out of service to DARK with the timers stopped (R129, R134). -/
theorem goDark_eq (g : Seg) (s : State) :
    goDark g s = leaveService g .segmentLost (fun x => { x with
      settleTimer := none, glitchTimer := none, gate := .released, known := false, engine := {}, state := .dark
      downMode := latchedMode (s.seg g).config.lossPolicy }) s := by
  rw [goDark, depart_eq, latched_eq, stopQualifier, leaveService_updSeg .segmentLost _ rfl]

/-- Settles O42: both losses of power are one way out of service. -/
theorem lossOfPowerDepartsToDark : Obligations.LossOfPowerDepartsToDark := by
  refine ⟨fun s g hl hup hw hp => ?_, fun s g hl hup hw hp => ?_⟩
  · refine ⟨_, congrArg Host.Outcome.next (onWire_taken hl ⟨hw, hp⟩), ?_⟩
    rw [goDark_eq]
    exact leaveService_spec .segmentLost rfl
  · refine ⟨_, exec_spgDeassert hp, ?_⟩
    rw [onWire_recordLevel _ _ hl, deassertPower_watched (by simpa using hup), if_pos (by simpa using hw), goDark_eq, recordLevel_seg,
      recordLevel, leaveService_updSeg .segmentLost _ rfl]
    exact leaveService_spec .segmentLost rfl

end Sys2Proof.Machine
end

section
/-! SUPPORT. The end of a reset: the DARK segments whose power is good enter SETTLING (R148, R149). -/

namespace Sys2Proof.Machine

open Sys2Proof.Claims

/-- A DARK segment whose power is good. -/
abbrev Segment.Powered (x : Segment) : Prop := x.state = .dark ∧ x.spg = true

/-- A segment at the end of a reset (R148, R149). -/
def Segment.settled (x : Segment) : Segment := if x.Powered then settling x else x

theorem settled_not_powered (x : Segment) : ¬ x.settled.Powered := by
  unfold Segment.settled
  split
  · exact fun h => nomatch h.1
  · assumption

theorem settled_settled (x : Segment) : x.settled.settled = x.settled := if_neg (settled_not_powered x)

theorem settleDark_eq (s : State) (g : Seg) :
    settleDark s g = if (s.seg g).Powered then (s.updSeg g settling).raise (.segChange g) else s := by
  unfold settleDark
  rw [settleIfPowered_eq, ← ite_and]

theorem settleDark_seg (s : State) (g j : Seg) : (settleDark s g).seg j = if j = g then (s.seg j).settled else s.seg j := by
  rw [settleDark_eq]
  by_cases hj : j = g
  · subst hj
    rw [if_pos rfl, Segment.settled]
    split <;> simp
  · rw [if_neg hj]
    split <;> simp [hj]

theorem settleDark_flag (s : State) (g : Seg) (e : EventFlag) :
    (settleDark s g).flag e = true ↔ s.flag e = true ∨ e = .segChange g ∧ (s.seg g).Powered := by
  rw [settleDark_eq]
  split
  · rename_i h; simp only [flag_raise, updSeg_flag, Bool.or_eq_true, decide_eq_true_eq, and_iff_left h]
  · rename_i h; simp only [h, and_false, or_false]

theorem settleDark_frame (s : State) (g : Seg) :
    settleDark s g = { s with ev := { s.ev with flags := (settleDark s g).ev.flags }, segs := (settleDark s g).segs } := by
  rw [settleDark_eq]
  split <;> rfl

theorem foldl_settleDark_seg (gs : List Seg) (s : State) (j : Seg) :
    (gs.foldl settleDark s).seg j = if j ∈ gs then (s.seg j).settled else s.seg j := by
  induction gs generalizing s with
  | nil => simp
  | cons g gs ih =>
    rw [List.foldl_cons, ih, settleDark_seg]
    by_cases hj : j = g
    · simp [hj, settled_settled]
    · simp [hj]

theorem foldl_settleDark_flag (gs : List Seg) (s : State) (e : EventFlag) :
    (gs.foldl settleDark s).flag e = true ↔ s.flag e = true ∨ ∃ g ∈ gs, e = .segChange g ∧ (s.seg g).Powered := by
  induction gs generalizing s with
  | nil => simp
  | cons g gs ih =>
    have hpowered : ∀ j, ((settleDark s g).seg j).Powered ↔ j ≠ g ∧ (s.seg j).Powered := fun j => by
      rw [settleDark_seg]
      by_cases hj : j = g
      · simp [hj, settled_not_powered]
      · simp [hj]
    rw [List.foldl_cons, ih, settleDark_flag]
    simp only [hpowered, List.mem_cons]
    grind -ring -linarith -order

theorem foldl_settleDark_frame (gs : List Seg) (s : State) :
    gs.foldl settleDark s =
      { s with ev := { s.ev with flags := (gs.foldl settleDark s).ev.flags }, segs := (gs.foldl settleDark s).segs } := by
  induction gs generalizing s with
  | nil => rfl
  | cons g gs ih =>
    have hfirst := fun {α : Type} (p : State → α) => congrArg p (settleDark_frame s g)
    have hrest := fun {α : Type} (p : State → α) => congrArg p (ih (settleDark s g))
    rw [List.foldl_cons]
    refine state_ext ((hrest State.win).trans (hfirst State.win)) ?_ ((hrest State.cq).trans (hfirst State.cq))
      ((hrest State.slots).trans (hfirst State.slots)) ((hrest State.targets).trans (hfirst State.targets)) rfl
      ((hrest State.entries).trans (hfirst State.entries)) ((hrest State.boxes).trans (hfirst State.boxes))
      ((hrest State.rstHeld).trans (hfirst State.rstHeld)) ((hrest State.pending).trans (hfirst State.pending))
    exact (hrest State.ev).trans
      (congrArg (fun x : EventUnit => { x with flags := (gs.foldl settleDark (settleDark s g)).ev.flags }) (hfirst State.ev))

theorem mem_allSegs (g : Seg) : g ∈ allSegs := by
  revert g
  decide

/-- After RST# every segment is DARK, so that its power alone decides. -/
theorem afterRst_powered (x : Segment) : x.afterRst.Powered ↔ x.spg = true := and_iff_right rfl

theorem settling_afterRst (x : Segment) : settling x.afterRst = { x.afterRst with state := .settling, settleTimer := some 20000 } :=
  have hdelay : ({} : SegConfig).settleTime.toNat * 1000 = 20000 := by decide
  congrArg (fun d : Nat => ({ x.afterRst with state := .settling, settleTimer := some d } : Segment)) hdelay

theorem afterRst_settled (x : Segment) :
    x.afterRst.settled = if x.spg then { x.afterRst with state := .settling, settleTimer := some 20000 } else x.afterRst :=
  if_congr (afterRst_powered x) (settling_afterRst x) rfl

/-- Settles O27: RST# replaces every segment by its reset value, and at its end the powered ones enter SETTLING. -/
theorem rstTakesResetValues : Obligations.RstTakesResetValues := by
  refine ⟨fun s => ⟨_, rfl, rfl, rfl, rstValues_seg true s, rfl⟩,
    fun s h => ⟨_, congrArg Host.Outcome.next (if_pos h), ?_, fun g => ?_, fun e => ?_, foldl_settleDark_frame allSegs (rstValues false s)⟩⟩
  · rw [foldl_settleDark_frame]
    rfl
  · rw [foldl_settleDark_seg, if_pos (mem_allSegs g), rstValues_seg, afterRst_settled]
    rfl
  · have hclear : (rstValues false s).flag e = false := BitVec.getLsbD_zero
    simp only [foldl_settleDark_flag, hclear, Bool.false_eq_true, false_or, mem_allSegs, true_and, rstValues_seg, afterRst_powered]

end Sys2Proof.Machine
end

section
/-! SUPPORT. The order of a segment, which PowerInv asks of each one while no reset is under way: what an UP, a RECOVERING and a silent segment
show of it, and the engines that keep it (R50, R61, R127 to R135, R151). -/

namespace Sys2Proof.Machine

open Sys2Proof.Safety Sys2Proof.Claims

/-! ### The order of a segment -/

/-- A segment and its engine are in order. -/
structure Segment.InOrder (x : Segment) : Prop where
  engine : EngineInv x.engine
  segment : SegmentInv x

/-- Every segment is in order. -/
def State.InOrder (s : State) : Prop := ∀ g : Seg, (s.seg g).InOrder

theorem powerInv_of_inOrder {s : State} (h : s.InOrder) : PowerInv s where
  engines g := (h g).engine
  offline g hoff hmode := by simpa [inService, hoff] using (h g).segment.noMode.mp hmode
  segments _ _ g := (h g).segment

theorem inOrder_of_powerInv {s : State} (h : PowerInv s) (hl : s.live = true) : s.InOrder := fun g =>
  have ho := (live_iff s).mp hl
  ⟨h.engines g, h.segments ho.1 ho.2 g⟩

/-- A segment without the fields that the order does not read: its list, configuration, glitch count and recorded line levels. -/
def Segment.bare (x : Segment) : Segment :=
  { x with list := [], config := {}, glitchCount := 0, sclHigh := true, sdaHigh := true }

theorem inOrder_bare {x : Segment} : x.bare.InOrder ↔ x.InOrder :=
  ⟨fun ⟨he, hs⟩ => ⟨he, by obtain ⟨⟩ := hs; constructor <;> assumption⟩,
    fun ⟨he, hs⟩ => ⟨he, by obtain ⟨⟩ := hs; constructor <;> assumption⟩⟩

/-- A change of a list, a configuration, a glitch count or a line level leaves a segment in order. -/
theorem inOrder_congr {x y : Segment} (h : y.bare = x.bare) (hx : x.InOrder) : y.InOrder :=
  inOrder_bare.mp (h ▸ inOrder_bare.mpr hx)

/-! ### Engines -/

/-- The engine of an UP segment: it is not in RECOVERY, and closes for a cancel mark alone. -/
structure Engine.Ordinary (e : Engine) : Prop where
  inv : EngineInv e
  recovery : e.state ≠ .recovery
  closing : e.closing = .none ∨ e.closing = .mark

/-- An engine that does not hold the bus. -/
structure Engine.OffBus (e : Engine) : Prop where
  inv : EngineInv e
  free : ¬ HoldsBus e

theorem Engine.OffBus.ordinary {e : Engine} (h : e.OffBus) : e.Ordinary := by
  refine ⟨h.inv, fun hr => h.free (.inr (.inr hr)), .inl ?_⟩
  by_contra hc
  exact h.free ((h.inv.closes hc).2.imp_right .inl)

theorem idle_offBus : Engine.OffBus {} := ⟨idle_engineInv, by simp⟩

/-- An engine that waits for its active slot has the timer of its wait and no other (R98, R77). -/
theorem waitEngine_offBus {e : Engine} {n : SlotId} (ha : e.active = some n) (d : Nat) :
    (waitEngine .backoff (some d) none e).OffBus ∧ (waitEngine .pollWait none (some d) e).OffBus := by
  constructor
  · exact ⟨by constructor <;> simp [waitEngine, ha], by simp [waitEngine]⟩
  · exact ⟨by constructor <;> simp [waitEngine, ha], by simp [waitEngine]⟩

/-- A busy timer runs in WAIT_FREE alone (R68). -/
theorem busyTimer_engineInv {e : Engine} (h : EngineInv e) {t : Timer} (ht : t.isSome = true → e.state = .waitFree) :
    EngineInv { e with busyTimer := t } := by
  refine { h with idle := fun hi => ?_, busy := ht }
  have hnone : t = none := by
    cases t with
    | none => rfl
    | some d => exact nomatch hi.symm.trans (ht rfl)
  rw [h.idle hi, hnone]

/-- An engine in WAIT_FREE is in order with its busy timer running or stopped (R68). -/
theorem waitFree_busyTimer {e : Engine} (h : EngineInv e) (hw : e.state = .waitFree) (t : Timer) :
    Engine.OffBus { e with busyTimer := t } :=
  ⟨busyTimer_engineInv h fun _ => hw, by simp [hw]⟩

/-- An engine in WAIT_FREE that sends its start (R67). -/
theorem start_ordinary {e : Engine} (h : EngineInv e) (hw : e.state = .waitFree) :
    Engine.Ordinary { e with state := .transfer, busyTimer := none } := by
  obtain ⟨-, waits, -, stretch, release, -, backoff, poll, closes, -, -, -⟩ := h
  refine ⟨?_, by simp, .inl (by grind)⟩
  constructor <;> grind -ring -linarith -order

/-- A step of the sequence that has been clocked, or a stop that follows it: the attempt goes on in TRANSFER without a stretch (R63, R70). -/
theorem step_ordinary {e : Engine} (h : e.Ordinary) (ht : e.state = .transfer) (pos : BytePos) (met : Option Failure) (nack : Bool) :
    Engine.Ordinary { e with pos := pos, met := met, nackOut := nack, stretchTimer := none } := by
  obtain ⟨⟨-, -, busy, -, release, -, backoff, poll, closes, atOnce, -, slotless⟩, hr, hc⟩ := h
  refine ⟨?_, hr, hc⟩
  constructor <;> grind -ring -linarith -order

/-- The engine that closes after a cancel mark (R80). -/
theorem closing_ordinary (e : Engine) (nack : Bool) : (closingEngine e .mark nack).Ordinary := by
  refine ⟨?_, by simp [closingEngine], .inr rfl⟩
  constructor <;> simp [closingEngine]

/-- The stop after OFFLINE or for DEVICE_RESET (R88, R91). -/
theorem closing_engineInv (e : Engine) {why : Closing} (h : why ≠ .none) : EngineInv (closingEngine e why false) := by
  constructor <;> simp [closingEngine, h]

/-- A stretch beyond its limit: the engine waits for the clock (R81). -/
theorem releaseWait_ordinary {e : Engine} (h : e.Ordinary) (ht : e.state = .transfer) (met : Option Failure) (limit : Nat) :
    Engine.Ordinary { e with
      state := .releaseWait, met := met, nackOut := false, stretchTimer := none, releaseTimer := some limit } := by
  obtain ⟨⟨-, -, busy, -, -, -, backoff, poll, closes, -, -, slotless⟩, -, hc⟩ := h
  refine ⟨?_, by simp, hc⟩
  constructor <;> grind -ring -linarith -order

/-- The clock released in RELEASE_WAIT: the engine closes with a stop (R82). -/
theorem released_ordinary {e : Engine} (h : e.Ordinary) (hw : e.state = .releaseWait) (pos : BytePos) :
    Engine.Ordinary { e with state := .transfer, pos := pos, releaseTimer := none } := by
  obtain ⟨⟨-, -, busy, stretch, -, -, backoff, poll, closes, -, -, slotless⟩, -, hc⟩ := h
  refine ⟨?_, by simp, hc⟩
  constructor <;> grind -ring -linarith -order

/-- An engine in WAIT_FREE or TRANSFER that enters RECOVERY (R69, R83). -/
theorem recovering_engineInv {x : Segment} {e : Engine} (h : EngineInv e) (hs : e.state = .waitFree ∨ e.state = .transfer) :
    EngineInv (recovering x e).engine := by
  obtain ⟨-, -, -, -, -, -, backoff, poll, -, -, -, -⟩ := h
  constructor <;> simp only [recovering] <;> grind -ring -linarith -order

/-- A pulse or a stop of a recovery ends, or its clock is held (R83). -/
theorem recovery_engineInv {e : Engine} (h : EngineInv e) (hr : e.state = .recovery) (pulses : Nat) (stop : Bool) (t : Timer) :
    EngineInv { e with pulses := pulses, recoveryStop := stop, releaseTimer := t } := by
  obtain ⟨-, -, busy, stretch, -, -, backoff, poll, closes, -, -, -⟩ := h
  constructor <;> grind -ring -linarith -order

/-- A stretch of an engine in TRANSFER that sends its attempt or closes after a mark is timed, or ends (R63). -/
theorem stretch_engineInv {e : Engine} (h : EngineInv e) (ht : e.state = .transfer) (hc : e.closing = .none ∨ e.closing = .mark)
    (t : Timer) : EngineInv { e with stretchTimer := t } := by
  obtain ⟨-, -, busy, -, release, -, backoff, poll, closes, -, -, slotless⟩ := h
  constructor <;> grind -ring -linarith -order

/-! ### What an UP, a RECOVERING and a silent segment show -/

/-- A segment in service, apart from its engine, its bus watch and its context: its power has been qualified (R128 to R135, R50). -/
def Segment.Qualified (x : Segment) : Prop :=
  x.settleTimer.isSome = false ∧ (x.glitchTimer.isSome = true ↔ x.spg = false) ∧ x.downMode = .none ∧ x.gate = .connected

/-- The context of a segment serves no mailbox. -/
def Segment.Aside (x : Segment) : Prop := x.ctx.phase = .listen ∨ x.ctx.phase = .address ∨ x.ctx.phase = .unaddressed

theorem Segment.InOrder.qualified {x : Segment} (h : x.InOrder) (hs : inService x) : x.Qualified := by
  obtain ⟨settling, -, -, watch, noMode, -, gate, -, -, -, -, -, -⟩ := h.segment
  unfold Segment.Qualified
  grind -ring -linarith -order

theorem Segment.InOrder.ordinary {x : Segment} (h : x.InOrder) (hup : x.state = .up) : x.engine.Ordinary := by
  obtain ⟨-, -, -, -, -, -, -, recovering, -, closing, -, -, -⟩ := h.segment
  exact ⟨h.engine, by grind, by cases hc : x.engine.closing <;> grind⟩

/-- The rule of an UP segment. -/
theorem inOrder_up {x : Segment} (hup : x.state = .up) (hq : x.Qualified) (he : x.engine.Ordinary)
    (ha : HoldsBus x.engine → x.Aside) : x.InOrder := by
  obtain ⟨hsettle, hwatch, hmode, hgate⟩ := hq
  obtain ⟨hinv, hr, hc⟩ := he
  refine ⟨hinv, ?_⟩
  unfold Segment.Aside at ha
  constructor <;> grind -ring -linarith -order

/-- The rule of a RECOVERING segment. -/
theorem inOrder_recovering {x : Segment} (hs : x.state = .recovering) (hq : x.Qualified) (he : EngineInv x.engine)
    (hr : x.engine.state = .recovery) (hl : x.ctx.phase = .listen) : x.InOrder := by
  obtain ⟨hsettle, hwatch, hmode, hgate⟩ := hq
  have hclosing : x.engine.closing = .none := by
    by_contra hc
    have := (he.closes hc).2
    grind -ring -linarith -order
  refine ⟨he, ?_⟩
  constructor <;> grind -ring -linarith -order

/-- A segment whose lines are released, with nothing on them (R128). -/
structure Segment.Silent (x : Segment) : Prop where
  gate : x.gate = .released
  known : x.known = false
  engine : x.engine = {}
  ctx : x.ctx.phase = .listen

/-- What the state of a segment out of service says of its power and its down mode (R129 to R135, R50). -/
structure Segment.Unserved (x : Segment) : Prop where
  state : ¬ inService x
  settling : x.settleTimer.isSome = true ↔ x.state = .settling
  dark : x.state = .dark → x.spg = false
  settlingPowered : x.state = .settling → x.spg = true
  watch : x.glitchTimer.isSome = true ↔ x.state = .faulted ∧ x.spg = false
  mode : x.downMode ≠ .none
  faulted : x.state = .faulted → x.downMode = .flushing

/-- The rule of a silent segment. -/
theorem inOrder_silent {x : Segment} (hu : x.Unserved) (hs : x.Silent) : x.InOrder := by
  obtain ⟨state, settling, dark, powered, watch, mode, faulted⟩ := hu
  obtain ⟨gate, known, engine, ctx⟩ := hs
  refine ⟨engine ▸ idle_engineInv, ?_⟩
  constructor <;> grind -ring -linarith -order

theorem Segment.InOrder.unserved {x : Segment} (h : x.InOrder) (hs : ¬ inService x) : x.Unserved := by
  obtain ⟨settling, dark, powered, watch, noMode, faulted, -, -, -, -, -, -, -⟩ := h.segment
  constructor <;> grind -ring -linarith -order

/-- Out of service only an OFFLINE segment may still have an engine at work. -/
theorem Segment.InOrder.silent {x : Segment} (h : x.InOrder) (hs : ¬ inService x) (hoff : x.engine.closing = .offline → x.state ≠ .offline) :
    x.Silent := by
  obtain ⟨-, -, -, -, -, -, gate, -, atWork, closing, known, listens, -⟩ := h.segment
  have hidle : x.engine.state = .idle := by grind
  constructor
  · cases hg : x.gate <;> grind -ring -linarith -order
  · grind
  · exact h.engine.idle hidle
  · grind

end Sys2Proof.Machine
end

section
/-! SUPPORT. The order of the segments under the changes of one of them, and under an engine's attempt (chapters 3 to 5). -/

namespace Sys2Proof.Machine

open Sys2Proof.Safety Sys2Proof.Claims

/-! ### Changes of one segment -/

theorem seg_of_segs {s t : State} (h : t.segs = s.segs) (g : Seg) : t.seg g = s.seg g := congrArg (fun v => v[g]) h

theorem inOrder_of_segs {s t : State} (h : t.segs = s.segs) (hs : s.InOrder) : t.InOrder := fun g => seg_of_segs h g ▸ hs g

theorem inOrder_of_onlySegment {s t : State} {g : Seg} {y : Segment} (hs : s.InOrder) (h : OnlySegment s t g y) (hy : y.InOrder) :
    t.InOrder := fun j => by
  by_cases hj : j = g
  · rw [hj, h.1]; exact hy
  · rw [h.2 j hj]; exact hs j

theorem inOrder_updSeg {s : State} {g : Seg} {f : Segment → Segment} (hs : s.InOrder) (hf : (f (s.seg g)).InOrder) : (s.updSeg g f).InOrder :=
  inOrder_of_onlySegment hs (onlySegment_updSeg s g f) hf

theorem inOrder_if {c : Prop} [Decidable c] {s t : State} (hs : s.InOrder) (h : c → t.InOrder) : (if c then t else s).InOrder := by
  split
  · rename_i hc; exact h hc
  · exact hs

/-- Of the engine the order of a segment reads the state and why it closes. -/
theorem inOrder_engine {x : Segment} {e : Engine} (h : x.InOrder) (he : EngineInv e) (hs : e.state = x.engine.state)
    (hc : e.closing = x.engine.closing) : Segment.InOrder { x with engine := e } := by
  obtain ⟨-, ⟨⟩⟩ := h
  refine ⟨he, ?_⟩
  constructor <;> simp_all

/-- A context that takes part in no transfer of its own engine (R151). -/
theorem inOrder_ctx {x : Segment} {c : RxContext} (h : x.InOrder) (hup : x.state = .up)
    (hc : x.engine.controls = false ∨ c.phase = .listen ∨ c.phase = .address ∨ c.phase = .unaddressed) :
    Segment.InOrder { x with ctx := c } := by
  rw [controls_eq_false_iff] at hc
  obtain ⟨he, hs⟩ := h
  refine ⟨he, { hs with listens := fun _ => hup, alongside := fun ht => ?_ }⟩
  exact hc.resolve_left fun hn => ht.elim hn.1 hn.2

theorem inOrder_known {x : Segment} (h : x.InOrder) (k : Bool) (hs : k = true → inService x) : Segment.InOrder { x with known := k } :=
  ⟨h.engine, { h.segment with known := hs }⟩

/-! ### A segment whose power is qualified -/

/-- What the qualifier and the commands of a segment leave of it: its state, its timers, SPGn, its down mode and its gate. -/
def Segment.power (x : Segment) : SegState × Timer × Timer × Bool × DownMode × Gate :=
  (x.state, x.settleTimer, x.glitchTimer, x.spg, x.downMode, x.gate)

/-- Segment g is UP with its power qualified, and every other segment is in order. -/
structure State.Serving (s : State) (g : Seg) : Prop where
  up : (s.seg g).state = .up
  qualified : (s.seg g).Qualified
  others : ∀ j : Seg, j ≠ g → (s.seg j).InOrder

theorem State.InOrder.serving {s : State} (h : s.InOrder) {g : Seg} (hup : (s.seg g).state = .up) : s.Serving g :=
  ⟨hup, (h g).qualified (.inl hup), fun j _ => h j⟩

theorem State.Serving.of_onlySegment {s t : State} {g : Seg} {y : Segment} (hs : s.Serving g) (h : OnlySegment s t g y)
    (hp : y.power = (s.seg g).power) : t.Serving g := by
  obtain ⟨hup, hq, hothers⟩ := hs
  simp only [Segment.power, Prod.mk.injEq] at hp
  obtain ⟨hstate, hsettle, hglitch, hspg, hmode, hgate⟩ := hp
  refine ⟨by rw [h.1, hstate, hup], ?_, fun j hj => by rw [h.2 j hj]; exact hothers j hj⟩
  rw [h.1, Segment.Qualified, hsettle, hglitch, hspg, hmode, hgate]
  exact hq

theorem State.Serving.of_segs {s t : State} {g : Seg} (hs : s.Serving g) (h : t.segs = s.segs) : t.Serving g :=
  hs.of_onlySegment ⟨seg_of_segs h g, fun j _ => seg_of_segs h j⟩ rfl

/-- A segment that serves is in order with an ordinary engine alongside which no mailbox is served. -/
theorem State.Serving.inOrder {s t : State} {g : Seg} {y : Segment} (hs : s.Serving g) (h : OnlySegment s t g y)
    (hp : y.power = (s.seg g).power) (he : y.engine.Ordinary) (ha : HoldsBus y.engine → y.Aside) : t.InOrder := fun j => by
  by_cases hj : j = g
  · obtain ⟨hup, hq, -⟩ := hs.of_onlySegment h hp
    rw [hj, h.1] at *
    exact inOrder_up hup hq he ha
  · rw [h.2 j hj]; exact hs.others j hj

/-- The engine of a segment that serves lets go of the bus, or waits for it. -/
theorem State.Serving.engage {s : State} {g : Seg} (hs : s.Serving g) {f : Segment → Engine} (he : (f (s.seg g)).OffBus) :
    (s.updSeg g (fun x => { x with engine := f x })).InOrder :=
  hs.inOrder (onlySegment_updSeg s g _) rfl he.ordinary fun hb => absurd hb he.free

/-! ### The ends of an attempt -/

theorem State.Serving.idleEngine_inOrder {s : State} {g : Seg} (hs : s.Serving g) : (idleEngine g s).InOrder :=
  hs.engage (f := fun _ => {}) idle_offBus

theorem State.Serving.finishSlot_inOrder {s : State} {g : Seg} (hs : s.Serving g) (n : SlotId) (st : Status) : (finishSlot g n st s).InOrder :=
  (hs.of_segs (completeSlot_segs s n st)).idleEngine_inOrder

theorem State.Serving.enterBackoff_inOrder {s : State} {g : Seg} (hs : s.Serving g) {n : SlotId} (ha : (s.engine g).active = some n) :
    (enterBackoff g n s).InOrder := by
  unfold enterBackoff
  split
  · exact hs.finishSlot_inOrder n _
  · exact hs.engage (waitEngine_offBus ha _).1

theorem State.Serving.enterPollWait_inOrder {s : State} {g : Seg} (hs : s.Serving g) {n : SlotId} (ha : (s.engine g).active = some n) :
    (enterPollWait g n s).InOrder := by
  unfold enterPollWait
  split
  · exact hs.finishSlot_inOrder n _
  · exact hs.engage (waitEngine_offBus ha _).2

@[simp] theorem quarantine_segs (n : SlotId) (s : State) : (quarantine n s).segs = s.segs := by
  unfold quarantine
  split <;> simp

@[simp] theorem markAbsent_segs (n : SlotId) (f : Failure) (s : State) : (markAbsent n f s).segs = s.segs := updEntryOf_segs s n _

@[simp] theorem creditTarget_segs (n : SlotId) (s : State) : (creditTarget n s).segs = s.segs := updEntryOf_segs s n _

@[simp] theorem countFailure_segs (n : SlotId) (f : Failure) (s : State) : (countFailure n f s).segs = s.segs := by
  unfold countFailure
  split <;> simp

/-- Recording a failure changes the last failure status of the engine alone. -/
theorem onlySegment_recordFailure (g : Seg) (n : SlotId) (f : Failure) (s : State) :
    OnlySegment s (recordFailure g n f s) g { s.seg g with engine := { s.engine g with lastFailure := some f } } := by
  have hsegs : (countFailure n f (s.updSlot n (fun x => { x with failures := x.failures + 1 }))).segs = s.segs := countFailure_segs n f _
  have honly := onlySegment_congr (onlySegment_updSeg _ g (fun x => { x with engine := { x.engine with lastFailure := some f } })) hsegs.symm rfl
  rw [seg_of_segs hsegs] at honly
  exact honly

/-- The failure evaluation ends with an engine that is IDLE or in BACKOFF (R96). -/
theorem State.Serving.evaluateFailure_inOrder {s : State} {g : Seg} (hs : s.Serving g) {n : SlotId} (ha : (s.engine g).active = some n)
    (f : Failure) : (evaluateFailure g f s).InOrder := by
  have honly := onlySegment_recordFailure g n f s
  have hrecorded : (recordFailure g n f s).Serving g := hs.of_onlySegment honly rfl
  have hactive : ((recordFailure g n f s).engine g).active = some n := by rw [State.engine, honly.1]; exact ha
  unfold evaluateFailure
  rw [ha]
  dsimp only
  split
  · exact hrecorded.finishSlot_inOrder n _
  · split
    · exact (hrecorded.of_segs (quarantine_segs n _)).finishSlot_inOrder n _
    · split
      · exact (hrecorded.of_segs (markAbsent_segs n f _)).finishSlot_inOrder n _
      · exact hrecorded.enterBackoff_inOrder hactive

theorem State.Serving.comparePoll_inOrder {s : State} {g : Seg} (hs : s.Serving g) {n : SlotId} (ha : (s.engine g).active = some n) :
    (comparePoll g n s).InOrder := by
  unfold comparePoll
  split
  · exact hs.finishSlot_inOrder n _
  · have hused : (s.updSlot n (fun x => { x with pollsUsed := x.pollsUsed + 1 })).Serving g := hs.of_segs rfl
    dsimp only
    split
    · exact hused.finishSlot_inOrder n _
    · exact hused.enterPollWait_inOrder ha

theorem State.Serving.succeed_inOrder {s : State} {g : Seg} (hs : s.Serving g) {n : SlotId} (ha : (s.engine g).active = some n) :
    (succeed g n s).InOrder := by
  have hcredited : (creditTarget n s).Serving g := hs.of_segs (creditTarget_segs n s)
  have hactive : ((creditTarget n s).engine g).active = some n := by rw [State.engine, seg_of_segs (creditTarget_segs n s)]; exact ha
  unfold succeed
  dsimp only
  split
  · exact hcredited.comparePoll_inOrder hactive
  · exact hcredited.finishSlot_inOrder n _

/-! ### The start of an attempt -/

/-- The end of a phase leaves every segment (R151). -/
theorem onlySegment_endPhase_updCtx (g : Seg) (s : State) (c : RxContext) :
    OnlySegment s ((endPhase g s).updCtx g (fun _ => c)) g { s.seg g with ctx := c } := by
  have honly := onlySegment_congr (onlySegment_updSeg (endPhase g s) g fun x => { x with ctx := c }) (endPhase_segs g s).symm rfl
  rw [endPhase_seg] at honly
  exact honly

theorem onlySegment_contextStart (g : Seg) (s : State) : OnlySegment s (contextStart g s) g { s.seg g with ctx := { phase := .address } } :=
  onlySegment_endPhase_updCtx g s _

theorem onlySegment_contextStop (g : Seg) (s : State) : OnlySegment s (contextStop g s) g { s.seg g with ctx := { phase := .listen } } :=
  onlySegment_endPhase_updCtx g s _

/-- The start of an attempt: the engine holds the bus, and its context receives the address alongside it (R67, R151). -/
theorem onlySegment_sendStart (g : Seg) (s : State) :
    OnlySegment s (sendStart g s) g { s.seg g with
      known := true, engine := { s.engine g with state := .transfer, busyTimer := none }, ctx := { phase := .address } } := by
  have honly := onlySegment_updSeg s g fun x => { x with known := true, engine := { x.engine with state := .transfer, busyTimer := none } }
  have hstart := onlySegment_trans honly (onlySegment_contextStart g _)
  rw [honly.1] at hstart
  exact hstart

theorem State.Serving.sendStart_inOrder {s : State} {g : Seg} (hs : s.Serving g) (he : EngineInv (s.engine g)) (hw : (s.engine g).state = .waitFree) :
    (sendStart g s).InOrder :=
  hs.inOrder (onlySegment_sendStart g s) rfl (start_ordinary he hw) fun _ => .inr (.inl rfl)

/-- An engine that waits for the bus or sends finds the data line held (R69, R75). -/
theorem State.Serving.enterRecovery_inOrder {s : State} {g : Seg} (hs : s.Serving g) (he : EngineInv (s.engine g))
    (hstate : (s.engine g).state = .waitFree ∨ (s.engine g).state = .transfer) : (enterRecovery g s).InOrder := by
  obtain ⟨-, -, honly, -, -⟩ := enterRecovery_spec g s
  intro j
  by_cases hj : j = g
  · obtain ⟨hsettle, hwatch, -, hgate⟩ := hs.qualified
    rw [hj, honly.1]
    exact inOrder_recovering rfl ⟨hsettle, hwatch, rfl, hgate⟩ (recovering_engineInv he hstate) rfl rfl
  · rw [honly.2 j hj]; exact hs.others j hj

/-- An engine in WAIT_FREE meets its bus: it recovers it, starts, waits with its busy timer, or waits (R67 to R69). -/
theorem State.Serving.meetBus_inOrder {s : State} {g : Seg} (hs : s.Serving g) (he : EngineInv (s.engine g)) (hw : (s.engine g).state = .waitFree)
    (held : Nat) : (meetBus g held s).InOrder := by
  unfold meetBus
  split
  · exact hs.enterRecovery_inOrder he (.inl hw)
  · split
    · exact hs.sendStart_inOrder he hw
    · split
      · exact hs.engage (waitFree_busyTimer he hw _)
      · exact hs.inOrder ⟨rfl, fun _ _ => rfl⟩ rfl (waitFree_busyTimer he hw _).ordinary fun hb => absurd hb (waitFree_busyTimer he hw _).free

theorem fixAttempt_engineInv (g : Seg) (n : SlotId) (s : State) : EngineInv ((fixAttempt g n s).engine g) := by
  simp only [fixAttempt, State.engine, updSeg_seg, if_true]
  constructor <;> simp

/-- The begin of an attempt, also where it is not begun (R65, R100). -/
theorem State.Serving.beginAttempt_inOrder {s : State} {g : Seg} (hs : s.Serving g) {n : SlotId} (ha : (s.engine g).active = some n) (held : Nat) :
    (beginAttempt g held s).InOrder := by
  unfold beginAttempt
  rw [ha]
  dsimp only
  split
  · exact hs.finishSlot_inOrder n _
  · split
    · exact (hs.of_segs (markAbsent_segs n _ s)).finishSlot_inOrder n _
    · have hfixed : (fixAttempt g n s).Serving g := 
        (hs.of_segs rfl : (s.updSlot n fun x => { x with bytesAccepted := 0, readData := [] }).Serving g).of_onlySegment
          (onlySegment_updSeg _ g _) rfl
      exact hfixed.meetBus_inOrder (fixAttempt_engineInv g n s) (fixAttempt_waits g n s) held

end Sys2Proof.Machine
end

section
/-! SUPPORT. The rows of the wire keep the segments in order (chapters 3 to 5, 7 and 8). -/

namespace Sys2Proof.Machine

open Sys2Proof.Safety Sys2Proof.Claims

/-- The row of an outcome keeps the segments in order. -/
def NextInOrder (s : State) (o : Host.Outcome State Fault Refusal) : Prop := ∃ t : State, o = .next t ∧ (PowerInv s → PowerInv t)

/-- A row of the wire is taken with no reset under way, while every segment is in order (R148, R149). -/
theorem onWire_inOrder {f : State → State} {s : State} (h : s.InOrder → (f s).InOrder) : NextInOrder s (.next (onWire f s)) := by
  refine ⟨_, rfl, fun hs => ?_⟩
  unfold onWire
  split
  · rename_i hl; exact powerInv_of_inOrder (h (inOrder_of_powerInv hs hl))
  · exact hs

/-! ### Which segments have an engine at work -/

/-- An engine at work outside RECOVERY that does not close after OFFLINE stands on an UP segment. -/
theorem Segment.InOrder.up {x : Segment} (h : x.InOrder) (hi : x.engine.state ≠ .idle) (hr : x.engine.state ≠ .recovery)
    (hc : x.engine.closing ≠ .offline) : x.state = .up := by
  obtain ⟨-, -, -, -, -, -, -, recovering, atWork, -, -, -, -⟩ := h.segment
  obtain (hup | hrec) | ⟨-, hoff⟩ := atWork hi
  · exact hup
  · exact absurd (recovering.mp hrec) hr
  · exact absurd hoff hc

/-- The stop after OFFLINE is sent in TRANSFER (R88). -/
theorem not_closing_offline {e : Engine} (h : EngineInv e) (ht : e.state ≠ .transfer) : e.closing ≠ .offline :=
  fun hc => ht (h.closesAtOnce (.inl hc))

/-- An engine that waits without the bus stands on an UP segment and has an active slot (R65). -/
theorem Segment.InOrder.waits {x : Segment} (h : x.InOrder)
    (hw : x.engine.state = .waitFree ∨ x.engine.state = .backoff ∨ x.engine.state = .pollWait) :
    x.state = .up ∧ ∃ n, x.engine.active = some n := by
  refine ⟨h.up ?_ ?_ (not_closing_offline h.engine ?_), Option.isSome_iff_exists.mp (h.engine.waits hw)⟩ <;>
    obtain hw | hw | hw := hw <;> simp [hw]

/-! ### The dispatch and the bus -/

theorem completeHead_inOrder {s : State} (hs : s.InOrder) (g : Seg) (n : SlotId) (st : Status) : (completeHead g n st s).InOrder :=
  inOrder_of_segs (completeSlot_segs _ n st) (inOrder_updSeg hs (inOrder_congr (x := s.seg g) rfl (hs g)))

theorem promote_inOrder {s : State} (hs : s.InOrder) {g : Seg} (hup : (s.seg g).state = .up) (n : SlotId) (held : Nat) :
    (promote g n held s).InOrder := by
  have hactive : (s.updSlot n (fun x => { x with state := .active })).Serving g := (hs.serving hup).of_segs rfl
  exact (hactive.of_onlySegment (onlySegment_updSeg _ g _) rfl).beginAttempt_inOrder (n := n) (by simp [State.engine]) held

theorem evaluateHead_inOrder {s : State} (hs : s.InOrder) (g : Seg) (held : Nat) (n : SlotId) : (evaluateHead g held n s).InOrder := by
  unfold evaluateHead
  split
  · exact completeHead_inOrder hs g n _
  · split
    · exact completeHead_inOrder hs g n _
    · split
      · exact completeHead_inOrder hs g n _
      · exact inOrder_if hs fun hup => promote_inOrder hs hup.1 n held

theorem execHeadEvaluation_inOrder (g : Seg) (held : Nat) (s : State) : NextInOrder s (execHeadEvaluation g held s) := by
  refine onWire_inOrder fun hs => ?_
  split
  · exact evaluateHead_inOrder hs g held _
  · exact hs

theorem execEngineStart_inOrder (g : Seg) (s : State) : NextInOrder s (execEngineStart g s) :=
  onWire_inOrder fun hs => inOrder_if hs fun hc => (hs.serving hc.2.1).sendStart_inOrder (hs g).engine hc.1

theorem execStuckDetected_inOrder (g : Seg) (s : State) : NextInOrder s (execStuckDetected g s) :=
  onWire_inOrder fun hs => inOrder_if hs fun hc => (hs.serving hc.2.1).enterRecovery_inOrder (hs g).engine (.inl hc.1)

theorem execBusyTimerExpiry_inOrder (g : Seg) (s : State) : NextInOrder s (execBusyTimerExpiry g s) :=
  onWire_inOrder fun hs => inOrder_if hs fun hc => by
    obtain ⟨hup, n, ha⟩ := (hs g).waits (.inl hc.1)
    exact (hs.serving hup).evaluateFailure_inOrder ha _

/-- The wait between two attempts ends (R98, R77). -/
theorem waited_inOrder {s : State} (hs : s.InOrder) {g : Seg} (hw : (s.engine g).state = .backoff ∨ (s.engine g).state = .pollWait)
    (held : Nat) : (beginAttempt g held s).InOrder := by
  obtain ⟨hup, n, ha⟩ := (hs g).waits (.inr hw)
  exact (hs.serving hup).beginAttempt_inOrder ha held

/-! ### The bytes of an attempt -/

/-- The segments are in order and the engine of g is in TRANSFER for its attempt (R61). -/
structure State.InTransfer (s : State) (g : Seg) : Prop where
  inOrder : s.InOrder
  transfer : (s.engine g).state = .transfer
  closing : (s.engine g).closing = .none

theorem State.InOrder.inTransfer {s : State} (hs : s.InOrder) {g : Seg} {n : SlotId} {pos : BytePos}
    (h : (s.engine g).sending = some (n, pos)) : s.InTransfer g ∧ (s.engine g).active = some n := by
  obtain ⟨ht, hc, ha, -⟩ := (sending_eq s g n pos).mp h
  exact ⟨⟨hs, ht, hc⟩, ha⟩

/-- An engine that sends, or closes after a cancel mark, stands on an UP segment. -/
theorem State.InOrder.serving_of_transfer {s : State} (hs : s.InOrder) {g : Seg} (ht : (s.engine g).state = .transfer)
    (hc : (s.engine g).closing = .none ∨ (s.engine g).closing = .mark) : s.Serving g := by
  refine hs.serving ((hs g).up ?_ ?_ ?_)
  · exact fun h => nomatch ht.symm.trans h
  · exact fun h => nomatch ht.symm.trans h
  · exact fun h => hc.elim (fun k => nomatch k.symm.trans h) fun k => nomatch k.symm.trans h

theorem State.InTransfer.serving {s : State} {g : Seg} (h : s.InTransfer g) : s.Serving g :=
  h.inOrder.serving_of_transfer h.transfer (.inl h.closing)

theorem State.InTransfer.of_segs {s t : State} {g : Seg} (h : s.InTransfer g) (hsegs : t.segs = s.segs) : t.InTransfer g := by
  have hengine : t.engine g = s.engine g := congrArg Segment.engine (seg_of_segs hsegs g)
  exact ⟨inOrder_of_segs hsegs h.inOrder, hengine ▸ h.transfer, hengine ▸ h.closing⟩

theorem State.InTransfer.ordinary {s : State} {g : Seg} (h : s.InTransfer g) : (s.engine g).Ordinary := (h.inOrder g).ordinary h.serving.up

/-- A step of the sequence leaves an ordinary engine, alongside which the context serves no mailbox (R63, R151). -/
theorem State.InTransfer.stepEngine_inOrder {s : State} {g : Seg} (h : s.InTransfer g) {f : Engine → Engine}
    (he : Engine.Ordinary { f (s.engine g) with stretchTimer := none }) : (stepEngine g f s).InOrder :=
  h.serving.inOrder (onlySegment_updSeg s g _) rfl he fun _ => (h.inOrder g).segment.alongside (.inl h.transfer)

theorem State.InTransfer.meetFailure_inOrder {s : State} {g : Seg} (h : s.InTransfer g) (f : Failure) : (meetFailure g f s).InOrder :=
  h.stepEngine_inOrder (step_ordinary h.ordinary h.transfer .closingStop (some f) (s.engine g).nackOut)

theorem State.InTransfer.endRead_inOrder {s : State} {g : Seg} (h : s.InTransfer g) (f : Option Failure) : (endRead g f s).InOrder :=
  h.stepEngine_inOrder (step_ordinary h.ordinary h.transfer .closingStop f true)

theorem State.InTransfer.closeByMark_inOrder {s : State} {g : Seg} (h : s.InTransfer g) (n : SlotId) (st : Status) (nack : Bool) :
    (closeByMark g n st nack s).InOrder :=
  (h.of_segs (completeSlot_segs s n st)).stepEngine_inOrder (closing_ordinary _ nack)

/-- A start on an UP segment is followed by an address byte (R151). -/
theorem contextStart_inOrder {s : State} (hs : s.InOrder) {g : Seg} (hup : (s.seg g).state = .up) : (contextStart g s).InOrder :=
  inOrder_of_onlySegment hs (onlySegment_contextStart g s) (inOrder_ctx (hs g) hup (.inr (.inr (.inl rfl))))

/-- The sequence goes on to its next step, before a second address byte by a repeated start (R72). -/
theorem State.InTransfer.goTo_inOrder {s : State} {g : Seg} (h : s.InTransfer g) (pos : BytePos) : (goTo g pos s).InOrder := by
  have hstep := h.stepEngine_inOrder (f := fun e => { e with pos := pos })
    (step_ordinary h.ordinary h.transfer pos (s.engine g).met (s.engine g).nackOut)
  unfold goTo
  dsimp only
  split
  · exact contextStart_inOrder hstep (by simpa [stepEngine] using h.serving.up)
  · exact hstep

theorem State.InTransfer.afterAck_inOrder {s : State} {g : Seg} (h : s.InTransfer g) (n : SlotId) (pos : BytePos) :
    (afterAck g n pos s).InOrder := by
  unfold afterAck
  split
  · exact h.goTo_inOrder pos
  · split
    · exact h.closeByMark_inOrder n _ false
    · exact h.goTo_inOrder pos

theorem State.InTransfer.contextUnaddressed {s : State} {g : Seg} (h : s.InTransfer g) : (contextUnaddressed g s).InTransfer g where
  inOrder := inOrder_updSeg h.inOrder (inOrder_ctx (h.inOrder g) h.serving.up (.inr (.inr (.inr rfl))))
  transfer := by simpa [Machine.contextUnaddressed] using h.transfer
  closing := by simpa [Machine.contextUnaddressed] using h.closing

/-- An address byte with its acknowledge (R70, R79, R93). -/
theorem State.InTransfer.addressByte_inOrder {s : State} {g : Seg} (h : s.InTransfer g) (n : SlotId) (pos : BytePos) (ack : Bool) :
    (if ack then afterAck g n pos (learnAddressAck n (Machine.contextUnaddressed g s))
      else meetFailure g .nackAddress (Machine.contextUnaddressed g s)).InOrder := by
  split
  · exact (h.contextUnaddressed.of_segs (updEntryOf_segs _ n _)).afterAck_inOrder n pos
  · exact h.contextUnaddressed.meetFailure_inOrder _

theorem execEngineAddressByte_inOrder (g : Seg) (ack : Bool) (s : State) : NextInOrder s (execEngineAddressByte g ack s) := by
  refine onWire_inOrder fun hs => ?_
  split
  · rename_i hsend; exact (hs.inTransfer hsend).1.addressByte_inOrder _ _ ack
  · rename_i hsend; exact (hs.inTransfer hsend).1.addressByte_inOrder _ _ ack
  · exact hs

theorem execEngineWriteByte_inOrder (g : Seg) (ack : Bool) (s : State) : NextInOrder s (execEngineWriteByte g ack s) := by
  refine onWire_inOrder fun hs => ?_
  split
  · rename_i n i hsend
    have h := (hs.inTransfer hsend).1
    split
    · exact (h.of_segs (updSlot_segs s n _)).afterAck_inOrder n _
    · exact h.meetFailure_inOrder _
  · exact hs

theorem execEngineReadByte_inOrder (g : Seg) (b : Byte) (s : State) : NextInOrder s (execEngineReadByte g b s) := by
  refine onWire_inOrder fun hs => ?_
  split
  · rename_i n i hsend
    have h : (appendRead n b s).InTransfer g := (hs.inTransfer hsend).1.of_segs (updSlot_segs s n _)
    split
    · exact h.endRead_inOrder _
    · split
      · exact h.closeByMark_inOrder n _ true
      · exact h.goTo_inOrder _
  · exact hs

/-! ### Stops and arbitration -/

theorem onlySegment_stopRises (g : Seg) (s : State) :
    OnlySegment s (stopRises g s) g { s.seg g with known := false, sclHigh := true, sdaHigh := true, ctx := { phase := .listen } } := by
  have honly := onlySegment_updSeg s g fun x => { x with known := false, sclHigh := true, sdaHigh := true }
  have hstop := onlySegment_trans honly (onlySegment_contextStop g _)
  rw [honly.1] at hstop
  exact hstop

theorem State.Serving.stopRises {s : State} {g : Seg} (hs : s.Serving g) : (stopRises g s).Serving g :=
  hs.of_onlySegment (onlySegment_stopRises g s) rfl

theorem execClosingStop_inOrder (g : Seg) (s : State) : NextInOrder s (execClosingStop g s) := by
  refine onWire_inOrder fun hs => ?_
  split
  · rename_i n hsend
    obtain ⟨h, ha⟩ := hs.inTransfer hsend
    rw [← stopRises_engine g g s] at ha
    split
    · exact h.serving.stopRises.evaluateFailure_inOrder ha _
    · exact h.serving.stopRises.succeed_inOrder ha
  · exact hs

/-- A stop that may fail is sent in TRANSFER for an attempt or after a cancel mark (R75, R80). -/
theorem transfer_of_atStop {e : Engine} (h : e.atStop = true) : e.state = .transfer ∧ (e.closing = .none ∨ e.closing = .mark) := by
  unfold Engine.atStop at h
  split at h <;> simp_all

/-- The end of the stop after OFFLINE leaves the segment silent (R88). -/
theorem endOfflineClose_inOrder {s : State} (hs : s.InOrder) {g : Seg} (hc : (s.engine g).closing = .offline) (rose : Bool) :
    (endOfflineClose g rose s).InOrder := by
  have hoff : (s.seg g).state = .offline := (hs g).segment.closing.2 hc
  have hlisten : (s.seg g).ctx.phase = .listen := by
    by_contra hl
    exact nomatch hoff.symm.trans ((hs g).segment.listens hl)
  obtain ⟨state, settling, dark, powered, watch, mode, faulted⟩ := (hs g).unserved (by simp [hoff])
  rw [endOfflineClose, releaseLines, idleEngine, State.updEngine, updSeg_updSeg, updSeg_updSeg]
  exact inOrder_updSeg hs (inOrder_silent ⟨state, settling, dark, powered, watch, mode, faulted⟩ ⟨rfl, rfl, rfl, hlisten⟩)

theorem execStopFailed_inOrder (g : Seg) (s : State) : NextInOrder s (execStopFailed g s) := by
  refine onWire_inOrder fun hs => ?_
  split
  · rename_i hstop
    obtain ⟨ht, hc⟩ := transfer_of_atStop hstop
    exact (hs.serving_of_transfer ht hc).enterRecovery_inOrder (hs g).engine (.inr ht)
  · exact inOrder_if hs fun hc => endOfflineClose_inOrder hs hc.2 false

theorem execMarkCloseStop_inOrder (g : Seg) (s : State) : NextInOrder s (execMarkCloseStop g s) :=
  onWire_inOrder fun hs => inOrder_if hs fun hc => (hs.serving_of_transfer hc.1 (.inr hc.2)).stopRises.idleEngine_inOrder

theorem execOfflineCloseStop_inOrder (g : Seg) (s : State) : NextInOrder s (execOfflineCloseStop g s) :=
  onWire_inOrder fun hs => inOrder_if hs fun hc => endOfflineClose_inOrder hs hc.2 true

theorem sending_of_arbitrates {s : State} {g : Seg} (h : s.arbitrates g = true) : ∃ n pos, (s.engine g).sending = some (n, pos) := by
  unfold State.arbitrates at h
  split at h
  · rename_i p _ hsend _; exact ⟨p.1, p.2, hsend⟩
  · rename_i n hsend _; exact ⟨n, _, hsend⟩
  · cases h

theorem State.Serving.sampleLow {s : State} {g : Seg} (hs : s.Serving g) : (sampleLow g s).Serving g :=
  hs.of_onlySegment (onlySegment_updSeg s g _) rfl

theorem execArbitrationLost_inOrder (g : Seg) (s : State) : NextInOrder s (execArbitrationLost g s) := by
  refine onWire_inOrder fun hs => ?_
  split
  · rename_i hlost
    obtain ⟨n, pos, hsend⟩ := sending_of_arbitrates hlost
    obtain ⟨h, ha⟩ := hs.inTransfer hsend
    exact h.serving.sampleLow.evaluateFailure_inOrder (n := n) (by simpa [Machine.sampleLow, State.engine] using ha) _
  · exact inOrder_if hs fun hc => (hs.serving_of_transfer hc.1 (.inr hc.2.1)).sampleLow.idleEngine_inOrder

end Sys2Proof.Machine
end

section
/-! SUPPORT. The rows of held clocks, recovery, remote transfers, the lines and the power keep the segments in order (chapters 4, 7 and 8). -/

namespace Sys2Proof.Machine

open Sys2Proof.Safety Sys2Proof.Claims

/-! ### Departures -/

/-- A departure from service to FAULTED leaves a silent segment whose watch goes on (R139, R133). -/
theorem faulted_inOrder {x : Segment} (hq : x.Qualified) : (outOfService x .faulted .flushing).InOrder := by
  obtain ⟨hsettle, hwatch, -, -⟩ := hq
  refine inOrder_silent ⟨by simp [outOfService], by simp [outOfService, hsettle], by simp [outOfService], by simp [outOfService], ?_,
    by simp [outOfService], fun _ => rfl⟩ ⟨rfl, rfl, rfl, rfl⟩
  simpa [outOfService] using hwatch

theorem enterFaulted_inOrder {s : State} (hs : s.InOrder) {g : Seg} (hserves : inService (s.seg g)) : (enterFaulted g s).InOrder :=
  inOrder_of_onlySegment hs (depart_spec g _ _ _ s).1.segment (faulted_inOrder ((hs g).qualified hserves))

theorem latchedMode_ne_none (p : LossPolicy) : latchedMode p ≠ .none := by cases p <;> decide

/-- A departure to DARK of a segment whose power is lost leaves it silent with its timers stopped (R129, R134). -/
theorem goDark_inOrder {s : State} {g : Seg} (hs : ∀ j, j ≠ g → (s.seg j).InOrder) (hp : (s.seg g).spg = false) : (goDark g s).InOrder := by
  obtain ⟨⟨-, -, -, honly⟩, -⟩ := depart_spec g .dark (s.latched g) .segmentLost (stopQualifier g s)
  have hdark := onlySegment_trans (onlySegment_updSeg s g _) honly
  intro j
  by_cases hj : j = g
  · rw [hj, goDark, hdark.1, stopQualifier, updSeg_seg, if_pos rfl, latched_eq]
    exact inOrder_silent ⟨by simp [outOfService], by simp [outOfService], fun _ => hp, by simp [outOfService], by simp [outOfService],
      latchedMode_ne_none _, by simp [outOfService]⟩ ⟨rfl, rfl, rfl, rfl⟩
  · rw [goDark, hdark.2 j hj]; exact hs j hj

/-! ### A held clock and recovery -/

theorem execStretchTimerExpiry_inOrder (g : Seg) (s : State) : NextInOrder s (execStretchTimerExpiry g s) :=
  onWire_inOrder fun hs => inOrder_if hs fun ⟨ht, htimer⟩ => by
    have hclosing : (s.engine g).closing = .none ∨ (s.engine g).closing = .mark := by
      have huntimed := (hs g).engine.closesUntimed
      change (s.seg g).engine.stretchTimer.isSome = true at htimer
      change (s.seg g).engine.closing = .none ∨ (s.seg g).engine.closing = .mark
      cases hc : (s.seg g).engine.closing <;> simp_all
    have hserving := hs.serving_of_transfer ht hclosing
    exact hserving.inOrder (onlySegment_updSeg s g _) rfl (releaseWait_ordinary ((hs g).ordinary hserving.up) ht _ _) fun _ =>
      (hs g).segment.alongside (.inl ht)

theorem execClockReleased_inOrder (g : Seg) (s : State) : NextInOrder s (execClockReleased g s) :=
  onWire_inOrder fun hs => inOrder_if hs fun hw => by
    have hup : (s.seg g).state = .up := (hs g).up (fun h => nomatch hw.symm.trans h) (fun h => nomatch hw.symm.trans h)
      (not_closing_offline (hs g).engine fun h => nomatch hw.symm.trans h)
    exact (hs.serving hup).inOrder (onlySegment_updSeg s g _) rfl (released_ordinary ((hs g).ordinary hup) hw _) fun _ =>
      (hs g).segment.alongside (.inr hw)

/-- An engine in RELEASE_WAIT or in RECOVERY stands on a segment in service (R61). -/
theorem Segment.InOrder.inService {x : Segment} (h : x.InOrder) (hw : x.engine.state = .releaseWait ∨ x.engine.state = .recovery) :
    Safety.inService x := by
  refine (h.segment.atWork ?_).resolve_right fun hoff => not_closing_offline h.engine ?_ hoff.2 <;> obtain hw | hw := hw <;> simp [hw]

theorem execReleaseTimerExpiry_inOrder (g : Seg) (s : State) : NextInOrder s (execReleaseTimerExpiry g s) :=
  onWire_inOrder fun hs => inOrder_if hs fun hc => by
    have hlow : (s.updSeg g (fun x => { x with sclHigh := false })).InOrder := inOrder_updSeg hs (inOrder_congr (x := s.seg g) rfl (hs g))
    exact enterFaulted_inOrder hlow (by simpa using (hs g).inService hc.1)

/-- A recovery goes on with another pulse or a stop (R83). -/
theorem recoveryStep_inOrder {s : State} (hs : s.InOrder) {g : Seg} (hr : (s.engine g).state = .recovery) {f : Segment → Segment}
    (pulses : Nat) (stop : Bool) (hf : (f (s.seg g)).bare = Segment.bare { s.seg g with
      engine := { s.engine g with pulses := pulses, recoveryStop := stop, releaseTimer := none } }) :
    (s.updSeg g f).InOrder :=
  inOrder_updSeg hs (inOrder_congr hf (inOrder_engine (hs g) (recovery_engineInv (hs g).engine hr pulses stop none) rfl rfl))

/-- The ninth pulse of a recovery that has not freed the line (R84). -/
theorem recoveryFails_inOrder {s t : State} (hs : s.InOrder) {g : Seg} (hr : (s.engine g).state = .recovery) (ht : t.InOrder)
    (hstate : (t.seg g).state = (s.seg g).state) {c : Prop} [Decidable c] : (if c then enterFaulted g t else t).InOrder := by
  refine inOrder_if ht fun _ => enterFaulted_inOrder ht ?_
  rw [Safety.inService, hstate]
  exact (hs g).inService (.inr hr)

theorem execRecoveryPulse_inOrder (g : Seg) (dataHigh : Bool) (s : State) : NextInOrder s (execRecoveryPulse g dataHigh s) :=
  onWire_inOrder fun hs => inOrder_if hs fun ⟨hr, _⟩ =>
    recoveryFails_inOrder hs hr (recoveryStep_inOrder hs hr ((s.engine g).pulses + 1) dataHigh rfl) (by simp)

/-- A recovery that has freed the line brings the segment to UP, and ends the attempt (R84, R138). -/
theorem recovered_inOrder {s : State} (hs : s.InOrder) {g : Seg} (hr : (s.engine g).state = .recovery) : (recovered g s).InOrder := by
  obtain ⟨hsettle, hwatch, -, hgate⟩ := (hs g).qualified ((hs g).inService (.inr hr))
  have honly : OnlySegment s (enterState g .up .none (s.updSeg g (fun x => { x with known := false, sclHigh := true, sdaHigh := true }))) g
      { s.seg g with state := .up, downMode := .none, known := false, sclHigh := true, sdaHigh := true } := by
    rw [enterState, updSeg_updSeg]
    exact onlySegment_updSeg_raise s g _ _
  have hserving : (enterState g .up .none (s.updSeg g (fun x => { x with known := false, sclHigh := true, sdaHigh := true }))).Serving g :=
    ⟨by rw [honly.1], by rw [honly.1]; exact ⟨hsettle, hwatch, rfl, hgate⟩, fun j hj => by rw [honly.2 j hj]; exact hs j⟩
  unfold recovered
  dsimp only
  split
  · rename_i ha; exact hserving.evaluateFailure_inOrder ha _
  · exact hserving.idleEngine_inOrder

theorem execRecoveryStop_inOrder (g : Seg) (rose : Bool) (s : State) : NextInOrder s (execRecoveryStop g rose s) :=
  onWire_inOrder fun hs => inOrder_if hs fun ⟨hr, _⟩ => by
    split
    · exact recovered_inOrder hs hr
    · exact recoveryFails_inOrder hs hr (recoveryStep_inOrder hs hr (s.engine g).pulses false rfl) (by simp)

/-! ### Starts and stops of other controllers -/

theorem inOrder_lines {x : Segment} (h : x.InOrder) (clock data : Bool) : Segment.InOrder { x with sclHigh := clock, sdaHigh := data } :=
  inOrder_congr (x := x) rfl h

theorem becomeBusy_engineInv {x : Segment} (h : EngineInv x.engine) :
    EngineInv (becomeBusy x) ∧ (becomeBusy x).state = x.engine.state ∧ (becomeBusy x).closing = x.engine.closing := by
  unfold becomeBusy
  split
  · rename_i hc; exact ⟨busyTimer_engineInv h fun _ => hc.1, rfl, rfl⟩
  · exact ⟨h, rfl, rfl⟩

/-- The context of a watched segment whose engine does not control the transfer sees a start or a stop where the segment is UP (R151). -/
theorem seenEdge_inOrder {s t u : State} {g : Seg} {y : Segment} {c : RxContext} (hs : s.InOrder) (hcontrols : (s.engine g).controls = false)
    (ht : OnlySegment s t g y) (hy : y.InOrder) (hstate : y.engine.state = (s.engine g).state) (hup : y.state = (s.seg g).state)
    (hu : OnlySegment t u g { t.seg g with ctx := c }) : (if (s.seg g).state = .up then u else t).InOrder := by
  have hin : t.InOrder := inOrder_of_onlySegment hs ht hy
  refine inOrder_if hin fun h => inOrder_of_onlySegment hin hu ?_
  rw [ht.1]
  refine inOrder_ctx hy (hup.trans h) (.inl ?_)
  rw [controls_eq_false_iff, hstate]
  exact (controls_eq_false_iff _).mp hcontrols

theorem seeStart_inOrder {s : State} (hs : s.InOrder) (g : Seg) : (seeStart g s).InOrder := by
  obtain ⟨hinv, hstate, hclosing⟩ := becomeBusy_engineInv (x := s.seg g) (hs g).engine
  refine inOrder_if hs fun ⟨hwatched, hcontrols, _⟩ => ?_
  refine seenEdge_inOrder hs hcontrols (onlySegment_updSeg s g _) ?_ hstate rfl (onlySegment_contextStart g _)
  exact inOrder_lines (inOrder_known (inOrder_engine (hs g) hinv hstate hclosing) true fun _ => (watched_iff (s.seg g)).mp hwatched) true false

theorem seeStop_inOrder {s : State} (hs : s.InOrder) (g : Seg) : (seeStop g s).InOrder := by
  refine inOrder_if hs fun ⟨_, hcontrols, _⟩ => ?_
  refine seenEdge_inOrder hs hcontrols (onlySegment_updSeg s g _) ?_ rfl rfl (onlySegment_contextStop g _)
  have hinv : EngineInv { s.engine g with busyTimer := none } := busyTimer_engineInv (hs g).engine (by simp)
  exact inOrder_lines (inOrder_known (inOrder_engine (hs g) hinv rfl rfl) false (by simp)) true true

/-! ### Remote transfers -/

/-- From s to t only the receive context of g changes, of the segments. -/
def OnlyContext (s t : State) (g : Seg) : Prop := ∃ c : RxContext, OnlySegment s t g { s.seg g with ctx := c }

theorem onlyContext_updCtx (s : State) (g : Seg) (f : RxContext → RxContext) : OnlyContext s (s.updCtx g f) g := ⟨_, onlySegment_updSeg s g _⟩

theorem onlyContext_updBox_updCtx (s : State) (m : BoxId) (b : Mailbox → Mailbox) (g : Seg) (f : RxContext → RxContext) :
    OnlyContext s ((s.updBox m b).updCtx g f) g :=
  ⟨_, onlySegment_congr (onlySegment_updSeg (s.updBox m b) g _) rfl rfl⟩

theorem OnlyContext.raise {s t : State} {g : Seg} (h : OnlyContext s t g) (e : EventFlag) : OnlyContext s (t.raise e) g := h

/-- A context takes part in a transfer that the engine of its UP segment does not control (R86, R151). -/
theorem OnlyContext.inOrder {s t : State} {g : Seg} (h : OnlyContext s t g) (hs : s.InOrder) (hup : (s.seg g).state = .up)
    (hc : (s.engine g).controls = false) : t.InOrder := by
  obtain ⟨c, honly⟩ := h
  exact inOrder_of_onlySegment hs honly (inOrder_ctx (hs g) hup (.inl hc))

theorem leaveAddress_onlyContext (g : Seg) (s : State) : OnlyContext s (leaveAddress g s) g := onlyContext_updCtx s g _

theorem refuseAddress_onlyContext (g : Seg) (s : State) : OnlyContext s (refuseAddress g s) g := (leaveAddress_onlyContext g s).raise _

theorem answerWrite_onlyContext (g : Seg) (e : EntryId) (s : State) : OnlyContext s (answerWrite g e s) g := by
  unfold answerWrite
  dsimp only
  split
  · exact onlyContext_updBox_updCtx s _ _ g _
  · exact refuseAddress_onlyContext g s

theorem answerRead_onlyContext (g : Seg) (e : EntryId) (s : State) : OnlyContext s (answerRead g e s) g := by
  unfold answerRead
  dsimp only
  split
  · exact onlyContext_updBox_updCtx s _ _ g _
  · exact refuseAddress_onlyContext g s
  · split
    · exact onlyContext_updCtx s g _
    · exact refuseAddress_onlyContext g s

theorem evaluateAddress_onlyContext (g : Seg) (b : Byte) (s : State) : OnlyContext s (evaluateAddress g b s) g := by
  unfold evaluateAddress
  split
  · exact leaveAddress_onlyContext g s
  · split
    · exact answerWrite_onlyContext g _ s
    · exact answerRead_onlyContext g _ s

theorem receiveByte_onlyContext (g : Seg) (m : BoxId) (b : Byte) (s : State) : OnlyContext s (receiveByte g m b s) g := by
  unfold receiveByte
  split
  · exact onlyContext_updBox_updCtx s _ _ g _
  · split
    · exact onlyContext_updCtx s g _
    · exact (onlyContext_updCtx s g _).raise _

theorem sendByte_onlyContext (g : Seg) (ack : Bool) (s : State) : OnlyContext s (sendByte g ack s) g := by
  unfold sendByte
  dsimp only
  split
  · exact onlyContext_updCtx s g _
  · split
    · exact onlyContext_updCtx s g _
    · exact (onlyContext_updCtx s g _).raise _

theorem serveHeld_onlyContext (g : Seg) (s : State) : OnlyContext s (serveHeld g s) g := onlyContext_updCtx s g _

theorem serveFill_onlyContext (g : Seg) (s : State) : OnlyContext s (serveFill g s) g := (onlyContext_updCtx s g _).raise _

theorem of_served {s : State} {g : Seg} {p : Phase} (h : s.served g p = true) :
    (s.seg g).state = .up ∧ (s.engine g).controls = false := by
  simp only [State.served, Bool.and_eq_true, decide_eq_true_eq, Bool.not_eq_true'] at h
  exact h.1

/-- A context that holds a read is that of an UP segment whose engine does not control the transfer (R161). -/
theorem State.InOrder.of_holding {s : State} (hs : s.InOrder) {g : Seg} (h : (s.ctx g).phase = .holding) :
    (s.seg g).state = .up ∧ (s.engine g).controls = false := by
  change (s.seg g).ctx.phase = .holding at h
  refine ⟨(hs g).segment.listens (by simp [h]), (controls_eq_false_iff _).mpr ⟨fun ht => ?_, fun ht => ?_⟩⟩
  · simpa [h] using (hs g).segment.alongside (.inl ht)
  · simpa [h] using (hs g).segment.alongside (.inr ht)

theorem OnlyContext.inOrder_of_holding {s t : State} {g : Seg} (h : OnlyContext s t g) (hs : s.InOrder)
    (hold : (s.ctx g).phase = .holding) : t.InOrder :=
  h.inOrder hs (hs.of_holding hold).1 (hs.of_holding hold).2

theorem execRemoteAddressByte_inOrder (g : Seg) (b : Byte) (s : State) : NextInOrder s (execRemoteAddressByte g b s) :=
  onWire_inOrder fun hs => inOrder_if hs fun hc => (evaluateAddress_onlyContext g b s).inOrder hs (of_served hc).1 (of_served hc).2

theorem execRemoteWriteByte_inOrder (g : Seg) (b : Byte) (s : State) : NextInOrder s (execRemoteWriteByte g b s) :=
  onWire_inOrder fun hs => inOrder_if hs fun hc => (receiveByte_onlyContext g _ b s).inOrder hs (of_served hc).1 (of_served hc).2

theorem execRemoteReadByte_inOrder (g : Seg) (ack : Bool) (s : State) : NextInOrder s (execRemoteReadByte g ack s) :=
  onWire_inOrder fun hs => inOrder_if hs fun ⟨hc, _⟩ => (sendByte_onlyContext g ack s).inOrder hs (of_served hc).1 (of_served hc).2

theorem execHoldTimerExpiry_inOrder (g : Seg) (s : State) : NextInOrder s (execHoldTimerExpiry g s) :=
  onWire_inOrder fun hs => inOrder_if hs fun ⟨hc, _⟩ => (serveFill_onlyContext g s).inOrder_of_holding hs hc

end Sys2Proof.Machine
end

section
/-! SUPPORT. The lines, the power, the commands and the resets keep the segments in order, and with them every row. -/

namespace Sys2Proof.Machine

open Sys2Proof.Safety Sys2Proof.Claims

/-! ### Rows beside the wire -/

/-- The order reads the segments and what resets are under way. -/
theorem powerInv_congr {s t : State} (hsegs : t.segs = s.segs) (hrst : t.rstHeld = s.rstHeld) (hbusy : t.win.resetBusy = s.win.resetBusy)
    (hs : PowerInv s) : PowerInv t where
  engines g := by rw [State.engine, seg_of_segs hsegs]; exact hs.engines g
  offline g := by rw [seg_of_segs hsegs]; exact hs.offline g
  segments hr hb g := by rw [seg_of_segs hsegs]; exact hs.segments (hrst ▸ hr) (hbusy ▸ hb) g

/-- An access of the window is carried out with no reset under way, while every segment is in order (R188, R189). -/
theorem onWindow_inOrder {f : State → State} {s : State} (h : s.InOrder → (f s).InOrder) : NextInOrder s (.next (onWindow f s)) :=
  onWire_inOrder h

theorem onWindow_segs_inOrder {f : State → State} {s : State} (h : (f s).segs = s.segs) : NextInOrder s (.next (onWindow f s)) :=
  onWindow_inOrder (inOrder_of_segs h)

theorem segs_if {c : Prop} [Decidable c] {s t : State} (h : c → t.segs = s.segs) : (if c then t else s).segs = s.segs := by
  split
  · rename_i hc; exact h hc
  · rfl

/-- While a reset is under way the engines alone are in order, and an OFFLINE segment has a down mode. -/
theorem powerInv_of_not_live {s t : State} (hs : PowerInv s) (hl : t.live = false)
    (h : ∀ g, EngineInv (t.engine g) ∧ (t.seg g).state = (s.seg g).state ∧ (t.seg g).downMode = (s.seg g).downMode) : PowerInv t where
  engines g := (h g).1
  offline g hoff := by
    obtain ⟨-, hstate, hmode⟩ := h g
    rw [hmode]
    exact hs.offline g (hstate ▸ hoff)
  segments hr hb := absurd ((live_iff t).mpr ⟨hr, hb⟩) (by simp [hl])

theorem powerInv_updSeg_of_not_live {s : State} (hs : PowerInv s) (hl : s.live = false) {g : Seg} {f : Segment → Segment}
    (h : EngineInv (f (s.seg g)).engine ∧ (f (s.seg g)).state = (s.seg g).state ∧ (f (s.seg g)).downMode = (s.seg g).downMode) :
    PowerInv (s.updSeg g f) := by
  refine powerInv_of_not_live hs hl fun j => ?_
  by_cases hj : j = g
  · subst hj
    simpa [State.engine] using h
  · simpa [State.engine, hj] using hs.engines j

/-! ### The lines -/

theorem engineClock_engineInv {x : Segment} (h : EngineInv x.engine) (high : Bool) :
    EngineInv (engineClock high x) ∧ (engineClock high x).state = x.engine.state ∧ (engineClock high x).closing = x.engine.closing := by
  unfold engineClock
  split
  · rename_i ht
    split
    · rename_i hc; exact ⟨stretch_engineInv h ht (.inl hc) _, rfl, rfl⟩
    · rename_i hc; exact ⟨stretch_engineInv h ht (.inr hc) _, rfl, rfl⟩
    · exact ⟨h, rfl, rfl⟩
    · exact ⟨h, rfl, rfl⟩
  · rename_i hr; exact ⟨recovery_engineInv h hr x.engine.pulses x.engine.recoveryStop _, rfl, rfl⟩
  all_goals exact ⟨h, rfl, rfl⟩

theorem waitingClock_engineInv {x : Segment} (h : EngineInv x.engine) (high : Bool) :
    EngineInv (waitingClock high x) ∧ (waitingClock high x).state = x.engine.state ∧ (waitingClock high x).closing = x.engine.closing := by
  unfold waitingClock
  split
  · rename_i hc; exact ⟨busyTimer_engineInv h fun _ => hc.1, rfl, rfl⟩
  · exact ⟨h, rfl, rfl⟩

/-- A reported level changes the record of the line and a timer of the engine (R63, R64, R68). -/
theorem lineChange_engineInv {x : Segment} (h : EngineInv x.engine) (line : Line) (high : Bool) :
    ∃ e : Engine, EngineInv e ∧ e.state = x.engine.state ∧ e.closing = x.engine.closing ∧
      ∃ clock data : Bool, lineChange line high x = { x with engine := e, sclHigh := clock, sdaHigh := data } := by
  unfold lineChange
  split
  · exact ⟨_, h, rfl, rfl, _, _, rfl⟩
  · split
    · exact ⟨_, h, rfl, rfl, _, _, rfl⟩
    · split
      · obtain ⟨hinv, hstate, hclosing⟩ := engineClock_engineInv h high
        exact ⟨_, hinv, hstate, hclosing, _, _, rfl⟩
      · obtain ⟨hinv, hstate, hclosing⟩ := waitingClock_engineInv h high
        exact ⟨_, hinv, hstate, hclosing, _, _, rfl⟩

theorem execLineChangeOutsideTransfer_inOrder (g : Seg) (line : Line) (high : Bool) (s : State) :
    NextInOrder s (execLineChangeOutsideTransfer g line high s) := by
  refine ⟨_, rfl, fun hs => ?_⟩
  obtain ⟨e, hinv, hstate, hclosing, clock, data, hline⟩ := lineChange_engineInv (hs.engines g) line high
  cases hl : s.live with
  | true =>
    have hin := inOrder_of_powerInv hs hl
    refine powerInv_of_inOrder ?_
    split
    · split
      · exact seeStop_inOrder hin g
      · exact seeStart_inOrder hin g
    · refine inOrder_updSeg hin ?_
      rw [hline]
      exact inOrder_lines (inOrder_engine (hin g) hinv hstate hclosing) clock data
  | false =>
    rw [if_neg (by simp)]
    refine powerInv_updSeg_of_not_live hs hl ?_
    rw [hline]
    exact ⟨hinv, rfl, rfl⟩

/-! ### The power -/

/-- A change of SPGn that the state of the segment allows, with the glitch watch that follows it (R130, R133, R134). -/
theorem inOrder_watched {x : Segment} (h : x.InOrder) {level : Bool} {t : Timer} (hdark : x.state = .dark → level = false)
    (hsettling : x.state = .settling → level = true)
    (hwatch : t.isSome = true ↔ (inService x ∨ x.state = .faulted) ∧ level = false) :
    Segment.InOrder { x with spg := level, glitchTimer := t } :=
  ⟨h.engine, { h.segment with dark := hdark, settlingPowered := hsettling, watch := hwatch }⟩

/-- A DARK segment on the way from a reset, from OFFLINE or from an assertion of SPGn, before its power is looked at (R131). -/
structure Segment.Requalifies (x : Segment) : Prop where
  dark : x.state = .dark
  settle : x.settleTimer.isSome = false
  glitch : x.glitchTimer.isSome = false
  mode : x.downMode ≠ .none
  silent : x.Silent

/-- It is in order as soon as it enters SETTLING where its power is good. -/
theorem settled_inOrder {x : Segment} (h : x.Requalifies) : x.settled.InOrder := by
  obtain ⟨dark, settle, glitch, mode, ⟨gate, known, engine, ctx⟩⟩ := h
  unfold Segment.settled
  split
  · rename_i hp
    refine inOrder_silent ?_ ⟨gate, known, engine, ctx⟩
    constructor <;> simp_all [settling]
  · rename_i hp
    refine inOrder_silent ?_ ⟨gate, known, engine, ctx⟩
    constructor <;> simp_all

theorem settled_of_dark {x : Segment} (h : x.state = .dark) : x.settled = if x.spg then settling x else x := by
  simp only [Segment.settled, Segment.Powered, h, true_and]

theorem Segment.InOrder.requalifies {x : Segment} (h : x.InOrder) (hd : x.state = .dark) : x.Requalifies := by
  have hu := h.unserved (by simp [hd])
  refine ⟨hd, ?_, ?_, hu.mode, h.silent (by simp [hd]) (by simp [hd])⟩
  · simpa [hd] using hu.settling
  · simpa [hd] using hu.watch

/-- What an assertion of SPGn leaves (R131, R134, R135). -/
theorem assertPower_inOrder {s : State} (hs : s.InOrder) {g : Seg} (hp : (s.seg g).spg = false) :
    (assertPower g (recordLevel g true s)).InOrder := by
  have hwatch := (hs g).segment.watch
  by_cases hwatched : (s.seg g).state = .up ∨ (s.seg g).state = .recovering ∨ (s.seg g).state = .faulted
  · have htimer : (s.seg g).glitchTimer.isSome = true := hwatch.mpr ⟨by tauto, hp⟩
    rw [assertPower_watched (by simpa using htimer) (by simpa using hwatched), ignoreGlitch, recordLevel, updSeg_updSeg]
    refine inOrder_updSeg hs (inOrder_congr (x := { s.seg g with spg := true, glitchTimer := none }) rfl ?_)
    exact inOrder_watched (hs g) (fun hd => by simp [hd] at hwatched) (fun _ => rfl) (by simp)
  · cases hstate : (s.seg g).state with
    | dark =>
      have hrequalifies := (hs g).requalifies hstate
      rw [assertPower_dark (by simp [hstate]), settleIfPowered_eq, if_pos (by simp), recordLevel, updSeg_updSeg]
      refine inOrder_of_onlySegment hs (onlySegment_updSeg_raise s g _ _) ?_
      have hsettled := settled_inOrder (x := { s.seg g with spg := true })
        ⟨hstate, hrequalifies.settle, hrequalifies.glitch, hrequalifies.mode,
          ⟨hrequalifies.silent.gate, hrequalifies.silent.known, hrequalifies.silent.engine, hrequalifies.silent.ctx⟩⟩
      rw [settled_of_dark (x := { s.seg g with spg := true }) hstate] at hsettled
      exact hsettled
    | offline =>
      rw [assertPower_offline (by simp [hstate])]
      exact inOrder_updSeg hs (inOrder_watched (hs g) (by simp [hstate]) (by simp) (by simpa [inService, hstate] using hwatch))
    | settling => rw [(hs g).segment.settlingPowered hstate] at hp; cases hp
    | up | recovering | faulted => simp [hstate] at hwatched

/-- What a deassertion of SPGn leaves (R132, R133, R135). -/
theorem deassertPower_inOrder {s : State} (hs : s.InOrder) (g : Seg) : (deassertPower g (recordLevel g false s)).InOrder := by
  have hwatch := (hs g).segment.watch
  by_cases hwatched : (s.seg g).state = .up ∨ (s.seg g).state = .recovering ∨ (s.seg g).state = .faulted
  · rw [deassertPower_watched (by simpa using hwatched)]
    split
    · exact goDark_inOrder (fun j hj => by simpa [recordLevel, hj] using hs j) (by simp)
    · rw [startGlitchWatch, recordLevel, updSeg_updSeg]
      refine inOrder_updSeg hs (inOrder_watched (hs g) (fun _ => rfl) (fun hd => by simp [hd] at hwatched) ?_)
      simp
      tauto
  · cases hstate : (s.seg g).state with
    | settling =>
      obtain ⟨gate, known, engine, ctx⟩ := (hs g).silent (by simp [hstate]) (by simp [hstate])
      rw [deassertPower_settling (by simp [hstate]), latched_eq, recordLevel_seg, stopQualifier, enterState, recordLevel, updSeg_updSeg,
        updSeg_updSeg]
      refine inOrder_of_onlySegment hs (onlySegment_updSeg_raise s g _ _) (inOrder_silent ?_ ⟨gate, known, engine, ctx⟩)
      exact ⟨by simp, by simp, fun _ => rfl, by simp, by simp, latchedMode_ne_none _, by simp⟩
    | dark | offline =>
      rw [deassertPower_down (by simp [hstate])]
      exact inOrder_updSeg hs (inOrder_watched (hs g) (by simp) (by simp [hstate]) (by simpa [inService, hstate] using hwatch))
    | up | recovering | faulted => simp [hstate] at hwatched

/-- While a reset is under way a change of SPGn is only recorded (R148, R149). -/
theorem recordLevel_powerInv {s : State} (hs : PowerInv s) (hl : s.live = false) (g : Seg) (level : Bool) : PowerInv (recordLevel g level s) :=
  powerInv_updSeg_of_not_live hs hl ⟨hs.engines g, rfl, rfl⟩

/-- An edge of SPGn, with what it does beside its record while no reset is under way. -/
theorem edge_inOrder {s : State} (hs : PowerInv s) (g : Seg) (level : Bool) {f : State → State}
    (hf : s.InOrder → (f (recordLevel g level s)).InOrder) : PowerInv (onWire f (recordLevel g level s)) := by
  cases hl : s.live with
  | true =>
    rw [onWire_recordLevel g level hl]
    exact powerInv_of_inOrder (hf (inOrder_of_powerInv hs hl))
  | false =>
    rw [onWire_not_live (show (recordLevel g level s).live = false from hl)]
    exact recordLevel_powerInv hs hl g level

theorem execSpgAssert_inOrder (g : Seg) (s : State) : NextInOrder s (execSpgAssert g s) := by
  refine ⟨_, rfl, fun hs => ?_⟩
  split
  · exact hs
  · rename_i hp; exact edge_inOrder hs g true fun hin => assertPower_inOrder hin (by simpa using hp)

theorem execSpgDeassert_inOrder (g : Seg) (s : State) : NextInOrder s (execSpgDeassert g s) := by
  refine ⟨_, rfl, fun hs => ?_⟩
  split
  · exact edge_inOrder hs g false fun hin => deassertPower_inOrder hin g
  · exact hs

/-- A segment whose power has been good for its settle time reaches UP (R132). -/
theorem execSettleTimerExpiry_inOrder (g : Seg) (s : State) : NextInOrder s (execSettleTimerExpiry g s) :=
  onWire_inOrder fun hs => inOrder_if hs fun ⟨_, hstate⟩ => by
    have hsilent := (hs g).silent (by simp [hstate]) (by simp [hstate])
    have hpower := (hs g).segment.settlingPowered hstate
    have hglitch : (s.seg g).glitchTimer.isSome = false := by simpa [inService, hstate] using (hs g).segment.watch
    rw [reachUp, enterState, updSeg_updSeg]
    refine inOrder_of_onlySegment hs (onlySegment_updSeg_raise s g _ _) (inOrder_up rfl ⟨rfl, ?_, rfl, rfl⟩ ?_ fun _ => .inl rfl)
    · simp [hglitch, hpower]
    · exact hsilent.engine ▸ idle_offBus.ordinary

theorem execGlitchTimerExpiry_inOrder (g : Seg) (s : State) : NextInOrder s (execGlitchTimerExpiry g s) :=
  onWire_inOrder fun hs => inOrder_if hs fun ⟨_, hp⟩ => goDark_inOrder (fun j _ => hs j) hp

end Sys2Proof.Machine
end

section
/-! SUPPORT. The commands, the resets and the table port keep the segments in order, and with them every row. -/

namespace Sys2Proof.Machine

open Sys2Proof.Safety Sys2Proof.Claims

/-! ### How a command is carried out -/

theorem record_segs (r : Reply) : r.record.segs = r.state.segs := by
  unfold Reply.record
  split <;> rfl

theorem runCommand_inOrder {code : BitVec 8} {f : State → Reply} {s : State} (h : ∀ t : State, t.InOrder → (f t).state.InOrder) :
    NextInOrder s (.next (runCommand code f s)) :=
  onWindow_inOrder fun hs => inOrder_of_segs (record_segs _) (h _ (inOrder_of_segs (s := s) rfl hs))

theorem runNumber_inOrder {code : BitVec 8} {k : Nat} {f : Fin k → State → Reply} {s : State}
    (h : ∀ (n : Fin k) (t : State), t.InOrder → (f n t).state.InOrder) : NextInOrder s (.next (runCommand code (withNumber k f) s)) :=
  runCommand_inOrder fun t ht => by
    unfold withNumber
    split
    · exact h _ t ht
    · exact ht

/-! ### Commands on slots and the queue -/

theorem allocate_segs (s : State) : (allocate s).state.segs = s.segs := by
  unfold allocate
  split <;> rfl

theorem discard_segs (n : SlotId) (s : State) : (discard n s).state.segs = s.segs := by
  unfold discard
  split <;> rfl

theorem latchPost_segs (n : SlotId) (g : Seg) (s : State) : (latchPost n g s).segs = s.segs := by simp [latchPost]

/-- A posted slot joins the list of its segment, or completes (R37, R38). -/
theorem acceptPost_inOrder {s : State} (hs : s.InOrder) (n : SlotId) (g : Seg) : (acceptPost n g s).InOrder := by
  have hlatched : (latchPost n g s).InOrder := inOrder_of_segs (latchPost_segs n g s) hs
  unfold acceptPost
  dsimp only
  split
  · exact inOrder_of_segs (completeSlot_segs _ n _) hlatched
  · exact inOrder_updSeg (s := (latchPost n g s).updSlot n _) (inOrder_of_segs rfl hlatched)
      (inOrder_congr (x := (latchPost n g s).seg g) rfl (hlatched g))

theorem post_inOrder (n : SlotId) (s : State) (hs : s.InOrder) : (post n s).state.InOrder := by
  unfold post
  split
  · split
    · exact inOrder_of_segs (s := s) rfl hs
    · split
      · exact acceptPost_inOrder hs n _
      · exact hs
  · exact hs

/-- A mark taken at once ends the slot of an engine that waits without the bus (R78). -/
theorem markTaken_inOrder {s : State} (hs : s.InOrder) (g : Seg) : (markTaken g s).InOrder := by
  have hfinish : ∀ (n : SlotId) (st : Status),
      (s.engine g).state = .waitFree ∨ (s.engine g).state = .backoff ∨ (s.engine g).state = .pollWait → (finishSlot g n st s).InOrder :=
    fun n st hw => (hs.serving ((hs g).waits hw).1).finishSlot_inOrder n st
  unfold markTaken
  split
  · exact hs
  · split
    · rename_i hw; exact hfinish _ _ (.inl hw)
    · rename_i hw; exact hfinish _ _ (.inr (.inl hw))
    · rename_i hw; exact hfinish _ _ (.inr (.inr hw))
    · exact hs

theorem abort_inOrder (n : SlotId) (s : State) (hs : s.InOrder) : (abort n s).state.InOrder := by
  have hmarked : (setMark .aborted n s).InOrder := inOrder_of_segs (updSlot_segs s n _) hs
  have htaken : (if (s.slot n).mark = .none then
      accept (if (s.slot n).state = .active then markTaken (s.slot n).segment (setMark .aborted n s) else setMark .aborted n s) n.val
    else accept s n.val).state.InOrder := by
    split
    · exact inOrder_if hmarked fun _ => markTaken_inOrder hmarked _
    · exact hs
  unfold abort
  split
  · exact htaken
  · exact htaken
  all_goals exact hs

theorem retire_segs (s : State) : (retire s).state.segs = s.segs := by
  unfold retire
  split <;> rfl

theorem flushSegment_inOrder (g : Seg) (s : State) (hs : s.InOrder) : (flushSegment g s).state.InOrder := by
  rw [flushSegment_eq]
  refine markTaken_inOrder (inOrder_of_segs ?_ hs) g
  rw [flushMarks_frame]

/-! ### Commands on segments and targets -/

theorem argMode_ne_none (s : State) : s.argMode ≠ .none := by
  unfold State.argMode
  split <;> decide

/-- OFFLINE from service leaves the engine sending one stop, or the segment silent (R88, R141). -/
theorem wentOffline_inOrder (x : Segment) {mode : DownMode} (hmode : mode ≠ .none) :
    Segment.InOrder { wentOffline x.engine mode x with ctx := { phase := .listen } } := by
  unfold wentOffline
  split
  · refine ⟨closing_engineInv x.engine (by decide), ?_⟩
    constructor <;> simp [inService, closingEngine, hmode]
  · refine inOrder_silent ?_ ⟨rfl, rfl, rfl, rfl⟩
    constructor <;> simp [inService, hmode]

/-- Out of service OFFLINE abandons the timers (R141). -/
theorem abandoned_inOrder {x : Segment} (h : x.InOrder) (hs : ¬ inService x) (hoff : x.state ≠ .offline) {mode : DownMode}
    (hmode : mode ≠ .none) :
    Segment.InOrder { x with settleTimer := none, glitchTimer := none, state := .offline, downMode := mode } := by
  obtain ⟨gate, known, engine, ctx⟩ := h.silent hs fun _ => hoff
  refine inOrder_silent ?_ ⟨gate, known, engine, ctx⟩
  constructor <;> simp [inService, hmode]

/-- An OFFLINE segment latches another mode (R142). -/
theorem inOrder_mode {x : Segment} (h : x.InOrder) (hoff : x.state = .offline) {mode : DownMode} (hmode : mode ≠ .none) :
    Segment.InOrder { x with downMode := mode } :=
  ⟨h.engine, { h.segment with
    noMode := ⟨fun hm => absurd hm hmode, fun hs => by simp [inService, hoff] at hs⟩
    faulted := fun hf => nomatch hoff.symm.trans hf }⟩

theorem offline_inOrder (g : Seg) (s : State) (hs : s.InOrder) : (offline g s).state.InOrder := by
  have hmode := argMode_ne_none s
  cases hstate : (s.seg g).state with
  | offline =>
    rw [offline_offline hstate]
    exact inOrder_updSeg hs (inOrder_mode (hs g) hstate hmode)
  | dark | settling | faulted =>
    rw [offline_outOfService (by simp [hstate])]
    exact inOrder_of_onlySegment hs (onlySegment_updSeg_raise s g _ _)
      (abandoned_inOrder (hs g) (by simp [inService, hstate]) (by simp [hstate]) hmode)
  | up | recovering =>
    rw [offline_inService (by simp [hstate])]
    exact inOrder_of_onlySegment hs (leaveService_spec .segmentDown (wentOffline_ctx _ _ _)).1.segment (wentOffline_inOrder (s.seg g) hmode)

/-- ONLINE requalifies the segment through DARK (R143). -/
theorem online_inOrder (g : Seg) (s : State) (hs : s.InOrder) : (online g s).state.InOrder := by
  by_cases hoff : (s.seg g).state = .offline
  · obtain ⟨-, settling, -, -, watch, -, -⟩ := (hs g).unserved (by simp [inService, hoff])
    have hlisten : (s.seg g).ctx.phase = .listen := by
      by_contra hl
      exact nomatch hoff.symm.trans ((hs g).segment.listens hl)
    rw [online_offline hoff]
    obtain ⟨-, honly, -⟩ := settleIfPowered_spec (raises_updSeg_raise s g _ _) (onlySegment_updSeg_raise s g (fun x => { x with
      state := .dark, downMode := latchedMode (s.seg g).config.lossPolicy, gate := .released, known := false, engine := {} }) (.segChange g))
    refine inOrder_of_onlySegment hs honly ?_
    rw [← settled_of_dark rfl]
    exact settled_inOrder ⟨rfl, by simpa [hoff] using settling, by simpa [hoff] using watch, latchedMode_ne_none _, ⟨rfl, rfl, rfl, hlisten⟩⟩
  · rw [show online g s = refuse s .badArgument g.val from if_neg hoff]
    exact hs

/-- A segment that is OFFLINE stays so, silent, with its timers stopped and with a down mode (R144, R149). -/
theorem inOrder_silent_offline {x : Segment} (hstate : x.state = .offline) (hmode : x.downMode ≠ .none) (hsettle : x.settleTimer = none)
    (hglitch : x.glitchTimer = none) (hs : x.Silent) : x.InOrder := by
  refine inOrder_silent ?_ hs
  constructor <;> simp [inService, hstate, hmode, hsettle, hglitch]

theorem resetSegment_inOrder {x : Segment} (h : x.InOrder) : (resetSegment x).InOrder := by
  unfold resetSegment
  dsimp only
  split
  · rename_i hoff
    exact inOrder_silent_offline hoff (h.unserved (by simp [inService, hoff])).mode rfl rfl ⟨rfl, rfl, rfl, rfl⟩
  · have hdark := settled_inOrder (x := { emptied x with
      ctx := { phase := .listen }, state := .dark, downMode := latchedMode x.config.lossPolicy })
      ⟨rfl, rfl, rfl, latchedMode_ne_none _, ⟨rfl, rfl, rfl, rfl⟩⟩
    rw [settled_of_dark rfl] at hdark
    exact hdark

theorem segmentReset_inOrder (g : Seg) (s : State) (hs : s.InOrder) : (segmentReset g s).state.InOrder := by
  obtain ⟨_, -, hreset⟩ := segmentReset_clearsWork g s
  exact inOrder_of_onlySegment hs hreset.segment (resetSegment_inOrder (hs g))

theorem readmit_segs (k : TargetId) (s : State) : (readmit k s).state.segs = s.segs := by
  unfold readmit
  split <;> rfl

/-! ### Mailbox commands -/

theorem releaseInbound_segs (m : BoxId) (s : State) : (releaseInbound m s).state.segs = s.segs := by
  unfold releaseInbound
  split <;> rfl

theorem holding_of_holder {s : State} {m : BoxId} {g : Seg} (h : s.holder m = some g) : (s.ctx g).phase = .holding := by
  have := List.find?_some h
  simp only [Bool.and_eq_true, decide_eq_true_eq] at this
  exact this.1

/-- A held read is served: its context goes on, and the segments are else as they were (R164). -/
theorem commitOutbound_inOrder (m : BoxId) (s : State) (hs : s.InOrder) : (commitOutbound m s).state.InOrder := by
  unfold commitOutbound
  split
  · exact hs
  · split
    · dsimp only [accept]
      split
      · rename_i g hheld
        exact (serveHeld_onlyContext g _).inOrder_of_holding (inOrder_of_segs (s := s) rfl hs) (holding_of_holder hheld)
      · exact inOrder_of_segs (s := s) rfl hs
    · exact hs

theorem cancelOutbound_inOrder (m : BoxId) (s : State) (hs : s.InOrder) : (cancelOutbound m s).state.InOrder := by
  unfold cancelOutbound
  split
  · exact inOrder_of_segs (s := s) rfl hs
  · exact hs
  · split
    · rename_i g hheld
      exact (serveFill_onlyContext g s).inOrder_of_holding hs (holding_of_holder hheld)
    · exact hs

/-! ### The resets -/

theorem beginReset_engineInv (x : Segment) :
    EngineInv x.beginReset.engine ∧ x.beginReset.state = x.state ∧ x.beginReset.downMode = x.downMode := by
  unfold Segment.beginReset
  dsimp only
  split
  · exact ⟨closing_engineInv x.engine (why := .deviceReset) (by decide), rfl, rfl⟩
  · exact ⟨idle_engineInv, rfl, rfl⟩

theorem execDeviceReset_inOrder (s : State) : NextInOrder s (execDeviceReset s) := by
  refine ⟨_, rfl, fun hs => ?_⟩
  unfold onWindow
  split
  · have hseg : ∀ g, (beginDeviceReset (storeCode Command.deviceReset.code s)).seg g = (s.seg g).beginReset := fun g => mapAll_getElem _ _ g
    refine powerInv_of_not_live hs (by simp [State.live, beginDeviceReset]) fun g => ?_
    rw [State.engine, hseg]
    exact beginReset_engineInv (s.seg g)
  · exact hs

/-- At the end of a reset the DARK segments requalify (R148, R149). -/
theorem foldl_settleDark_inOrder {s : State} (h : ∀ g, (s.seg g).settled.InOrder) : (allSegs.foldl settleDark s).InOrder := fun g => by
  rw [foldl_settleDark_seg, if_pos (mem_allSegs g)]
  exact h g

theorem endReset_settled_inOrder {x : Segment} (hmode : x.state = .offline → x.downMode ≠ .none) : x.endReset.settled.InOrder := by
  unfold Segment.endReset
  dsimp only
  split
  · rename_i hoff
    rw [Segment.settled, if_neg (by simp [hoff])]
    exact inOrder_silent_offline hoff (hmode hoff) rfl rfl ⟨rfl, rfl, rfl, rfl⟩
  · exact settled_inOrder ⟨rfl, rfl, rfl, latchedMode_ne_none _, ⟨rfl, rfl, rfl, rfl⟩⟩

theorem execDeviceResetEnd_inOrder (s : State) : NextInOrder s (execDeviceResetEnd s) := by
  refine ⟨_, rfl, fun hs => ?_⟩
  split
  · rw [endDeviceReset_eq]
    refine powerInv_of_inOrder (foldl_settleDark_inOrder fun g => ?_)
    rw [deviceResetValues_seg]
    exact endReset_settled_inOrder (hs.offline g)
  · exact hs

theorem afterRst_requalifies (x : Segment) : x.afterRst.Requalifies := ⟨rfl, rfl, rfl, by simp [Segment.afterRst], ⟨rfl, rfl, rfl, rfl⟩⟩

/-- While RST# is held the engines are IDLE and no segment is OFFLINE (R90, R148). -/
theorem execRstAssert_inOrder (s : State) : NextInOrder s (execRstAssert s) := by
  refine ⟨_, rfl, fun _ => ⟨fun g => ?_, fun g hoff => ?_, fun hr => nomatch hr⟩⟩
  · rw [State.engine, rstValues_seg]
    exact idle_engineInv
  · rw [rstValues_seg] at hoff
    exact nomatch hoff

theorem execRstEnd_inOrder (s : State) : NextInOrder s (execRstEnd s) := by
  refine ⟨_, rfl, fun hs => ?_⟩
  split
  · refine powerInv_of_inOrder (foldl_settleDark_inOrder fun g => ?_)
    rw [rstValues_seg]
    exact settled_inOrder (afterRst_requalifies _)
  · exact hs

/-! ### The window and the table port -/

@[simp] theorem startCoalescing_segs (s : State) : s.startCoalescing.segs = s.segs := by rw [startCoalescing_eq]

theorem clearFlags_segs (s : State) (ones : Word) : (s.clearFlags ones).segs = s.segs := by
  unfold State.clearFlags
  dsimp only
  split
  · split
    · rfl
    · split <;> simp
  · rfl

theorem configureQueue_segs (s : State) (threshold : BitVec 6) (delay : Byte) : (s.configureQueue threshold delay).segs = s.segs := by
  have hsignal : ∀ {c : Prop} [Decidable c] (t : State), (if c then t.signalQueue else t).segs = t.segs := fun t => segs_if fun _ => rfl
  unfold State.configureQueue
  dsimp only
  split
  · exact hsignal (s.updCq _)
  · exact (segs_if fun _ => startCoalescing_segs _).trans (hsignal (s.updCq _))

theorem writePlain_segs (r : PlainRegister) (v : Word) (s : State) : (writePlain r v s).segs = s.segs := by cases r <;> rfl

theorem execTbloRead_inOrder (s : State) : NextInOrder s (execTbloRead s) := by
  refine ⟨_, rfl, ?_⟩
  split <;> exact powerInv_congr rfl rfl rfl

theorem execUndefinedWordAccess_inOrder (word : Fin 8) (a : Access) (s : State) : NextInOrder s (execUndefinedWordAccess word a s) := by
  obtain ⟨t, ht, hkeeps⟩ := onWindow_segs_inOrder (f := fun s => s.raise .windowError) (raise_segs s .windowError)
  cases ht
  refine ⟨_, rfl, fun hs => ?_⟩
  cases a with
  | read => exact powerInv_congr (s := onWindow (fun s => s.raise .windowError) s) rfl rfl rfl (hkeeps hs)
  | write v => exact hkeeps hs

theorem execTimeBaseCount_inOrder (s : State) : NextInOrder s (execTimeBaseCount s) := by
  refine ⟨_, rfl, ?_⟩
  split <;> exact powerInv_congr rfl rfl rfl

theorem execTdataRead_inOrder (s : State) : NextInOrder s (execTdataRead s) := by
  refine ⟨_, rfl, ?_⟩
  split
  · unfold tdataRead
    split <;> exact powerInv_congr rfl rfl rfl
  · exact powerInv_congr rfl rfl rfl

theorem storeIdentity_segs (k : TargetId) (d : Identity) (s : State) : (storeIdentity k d s).segs = s.segs := by
  unfold storeIdentity
  split <;> rfl

/-- A write of TDATA changes no segment but for a configuration (R147). -/
theorem tdataWrite_inOrder (v : Word) {s : State} (hs : s.InOrder) : (tdataWrite v s).InOrder := by
  unfold tdataWrite
  split
  · unfold writeIdentity
    split
    · exact inOrder_of_segs (s := s) rfl hs
    · exact inOrder_of_segs (storeIdentity_segs _ _ s) hs
  · exact inOrder_of_segs (s := s) rfl hs
  · unfold writeSlotField
    split <;> exact inOrder_of_segs (s := s) rfl hs
  · rename_i g i _
    exact inOrder_of_segs (s := s.updSeg g fun x => { x with config := x.config.store i v }) rfl
      (inOrder_updSeg hs (inOrder_congr (x := s.seg g) rfl (hs g)))
  all_goals exact inOrder_of_segs (s := s) rfl hs

/-- Every row of a TDATA write is a write of the word that is selected (R184). -/
theorem exec_tdataWrite {i : Instr} {v : Word} (s : State)
    (h : i ∈ [.targetIdentityWrite v, .targetPolicyWrite v, .slotFieldWrite v, .segmentConfigWrite v, .responderEntryWrite v,
      .stagingBytesWrite v, .readOnlyTableWrite v, .tdataWriteOutOfRange v]) : exec i s = .next (onWindow (tdataWrite v) s) := by
  simp only [List.mem_cons, List.not_mem_nil, or_false] at h
  obtain rfl | rfl | rfl | rfl | rfl | rfl | rfl | rfl := h
  all_goals
    refine congrArg (fun f => Host.Outcome.next (onWindow f s)) (funext fun t => ?_)
    cases hsel : t.selected with
    | none => simp only [tdataWrite, hsel]
    | some w => cases w <;> simp [tdataWrite, hsel, TableWord.readOnly]

theorem tdataRow_inOrder {i : Instr} {v : Word} (s : State)
    (h : i ∈ [.targetIdentityWrite v, .targetPolicyWrite v, .slotFieldWrite v, .segmentConfigWrite v, .responderEntryWrite v,
      .stagingBytesWrite v, .readOnlyTableWrite v, .tdataWriteOutOfRange v]) : NextInOrder s (exec i s) := by
  rw [exec_tdataWrite s h]
  exact onWindow_inOrder (tdataWrite_inOrder v)

/-! ### Every row -/

/-- A write of CMD with the code of a command. -/
theorem writeCommand_inOrder (c : Command) (s : State) : NextInOrder s (writeCommand c s) := by
  cases c with
  | allocate => exact runCommand_inOrder fun t => inOrder_of_segs (allocate_segs t)
  | discard => exact runNumber_inOrder fun n t => inOrder_of_segs (discard_segs n t)
  | post => exact runNumber_inOrder post_inOrder
  | abort => exact runNumber_inOrder abort_inOrder
  | retire => exact runCommand_inOrder fun t => inOrder_of_segs (retire_segs t)
  | flushSegment => exact runNumber_inOrder flushSegment_inOrder
  | offline => exact runNumber_inOrder offline_inOrder
  | online => exact runNumber_inOrder online_inOrder
  | segmentReset => exact runNumber_inOrder segmentReset_inOrder
  | readmit => exact runNumber_inOrder fun k t => inOrder_of_segs (readmit_segs k t)
  | releaseInbound => exact runNumber_inOrder fun m t => inOrder_of_segs (releaseInbound_segs m t)
  | commitOutbound => exact runNumber_inOrder commitOutbound_inOrder
  | cancelOutbound => exact runNumber_inOrder cancelOutbound_inOrder
  | deviceReset => exact execDeviceReset_inOrder s

theorem execUnknownCommand_inOrder (code : BitVec 8) (s : State) : NextInOrder s (execUnknownCommand code s) := by
  unfold execUnknownCommand
  split
  · exact runCommand_inOrder fun _ ht => ht
  · exact writeCommand_inOrder _ s

/-- Every row keeps the segments in order. -/
theorem exec_inOrder (i : Instr) (s : State) : NextInOrder s (exec i s) := by
  cases i with
  | allocate => exact writeCommand_inOrder .allocate s
  | discard => exact writeCommand_inOrder .discard s
  | post => exact writeCommand_inOrder .post s
  | abort => exact writeCommand_inOrder .abort s
  | retire => exact writeCommand_inOrder .retire s
  | flushSegment => exact writeCommand_inOrder .flushSegment s
  | offline => exact writeCommand_inOrder .offline s
  | online => exact writeCommand_inOrder .online s
  | segmentReset => exact writeCommand_inOrder .segmentReset s
  | readmit => exact writeCommand_inOrder .readmit s
  | releaseInbound => exact writeCommand_inOrder .releaseInbound s
  | commitOutbound => exact writeCommand_inOrder .commitOutbound s
  | cancelOutbound => exact writeCommand_inOrder .cancelOutbound s
  | deviceReset => exact execDeviceReset_inOrder s
  | deviceResetEnd => exact execDeviceResetEnd_inOrder s
  | unknownCommand code => exact execUnknownCommand_inOrder code s
  | tdataRead => exact execTdataRead_inOrder s
  | targetIdentityWrite v | targetPolicyWrite v | slotFieldWrite v | segmentConfigWrite v | responderEntryWrite v | stagingBytesWrite v
  | readOnlyTableWrite v | tdataWriteOutOfRange v => exact tdataRow_inOrder (v := v) s (by simp)
  | evtWrite v => exact onWindow_segs_inOrder (f := fun s => s.clearFlags v) (clearFlags_segs s v)
  | evtenWrite v => exact onWindow_segs_inOrder (f := writeEvten v) rfl
  | ctlWrite v => exact onWindow_segs_inOrder (f := writeCtl v) rfl
  | cqcfgWrite v => exact onWindow_segs_inOrder (f := writeCqcfg v) (configureQueue_segs s _ _)
  | tbloRead => exact execTbloRead_inOrder s
  | undefinedWordAccess w a => exact execUndefinedWordAccess_inOrder w a s
  | registerWrite r v => exact onWindow_segs_inOrder (f := writePlain r v) (writePlain_segs r v s)
  | rstAssert => exact execRstAssert_inOrder s
  | rstEnd => exact execRstEnd_inOrder s
  | spgAssert g => exact execSpgAssert_inOrder g s
  | spgDeassert g => exact execSpgDeassert_inOrder g s
  | settleTimerExpiry g => exact execSettleTimerExpiry_inOrder g s
  | glitchTimerExpiry g => exact execGlitchTimerExpiry_inOrder g s
  | headEvaluation g held => exact execHeadEvaluation_inOrder g held s
  | engineStart g => exact execEngineStart_inOrder g s
  | busyTimerExpiry g => exact execBusyTimerExpiry_inOrder g s
  | stuckDetected g => exact execStuckDetected_inOrder g s
  | engineAddressByte g ack => exact execEngineAddressByte_inOrder g ack s
  | engineWriteByte g ack => exact execEngineWriteByte_inOrder g ack s
  | engineReadByte g b => exact execEngineReadByte_inOrder g b s
  | closingStop g => exact execClosingStop_inOrder g s
  | stopFailed g => exact execStopFailed_inOrder g s
  | markCloseStop g => exact execMarkCloseStop_inOrder g s
  | offlineCloseStop g => exact execOfflineCloseStop_inOrder g s
  | arbitrationLost g => exact execArbitrationLost_inOrder g s
  | stretchTimerExpiry g => exact execStretchTimerExpiry_inOrder g s
  | clockReleased g => exact execClockReleased_inOrder g s
  | releaseTimerExpiry g => exact execReleaseTimerExpiry_inOrder g s
  | recoveryPulse g dataHigh => exact execRecoveryPulse_inOrder g dataHigh s
  | recoveryStop g rose => exact execRecoveryStop_inOrder g rose s
  | backoffTimerExpiry g held => exact onWire_inOrder fun hs => inOrder_if hs fun hc => waited_inOrder hs (.inl hc.1) held
  | pollTimerExpiry g held => exact onWire_inOrder fun hs => inOrder_if hs fun hc => waited_inOrder hs (.inr hc.1) held
  | coalescingTimerExpiry => exact onWire_inOrder fun hs => inOrder_if hs fun _ => inOrder_of_segs (s := s) rfl hs
  | remoteStart g => exact onWire_inOrder fun hs => seeStart_inOrder hs g
  | remoteAddressByte g b => exact execRemoteAddressByte_inOrder g b s
  | remoteWriteByte g b => exact execRemoteWriteByte_inOrder g b s
  | remoteReadByte g ack => exact execRemoteReadByte_inOrder g ack s
  | remoteStop g => exact onWire_inOrder fun hs => seeStop_inOrder hs g
  | remoteRepeatedStart g => exact onWire_inOrder fun hs => seeStart_inOrder hs g
  | holdTimerExpiry g => exact execHoldTimerExpiry_inOrder g s
  | lineChangeOutsideTransfer g line high => exact execLineChangeOutsideTransfer_inOrder g line high s
  | timeBaseCount => exact execTimeBaseCount_inOrder s

/-- Settles O9: with no reset under way every segment is in order by its state, and a row changes one of them to another in order; under a reset
only the engines and the down modes are kept, from which its end puts every segment in order. -/
theorem everyStepKeepsSegmentsInOrder : Obligations.EveryStepKeepsSegmentsInOrder := by
  intro s t hs h
  unfold step at h
  split at h
  · cases h; exact hs
  · rename_i i rest _
    obtain ⟨u, hu, hkeeps⟩ := exec_inOrder i { s with pending := rest }
    cases hu.symm.trans h
    exact hkeeps (powerInv_congr (s := s) rfl rfl rfl hs)

end Sys2Proof.Machine
end

section
/-! SUPPORT. The mailboxes with the receive contexts that use them, as MailboxInv sees them, and the one rule by which a context takes, keeps or
gives up a mailbox (R154, R155, R158, R161). -/

namespace Sys2Proof.Machine

open Sys2Proof.Safety Sys2Proof.Claims

/-! ### The mail of a state -/

/-- The uses that a receive context makes of a mailbox. -/
inductive Use where
  | write | read | hold

/-- The use that a context makes of its mailbox, if it makes one (R151): a read in fill leaves the buffer alone (R162). -/
def RxContext.use (c : RxContext) : Option Use :=
  match c.phase with
  | .writing => some .write
  | .reading => if c.fill then none else some .read
  | .holding => some .hold
  | .listen | .address | .unaddressed => none

/-- The state of a mailbox in which a use of it is made (R155, R158, R161). -/
def Mailbox.Serves (b : Mailbox) : Use → Prop
  | .write => b.inState = .filling
  | .read => b.outState = .sending
  | .hold => b.outState = .empty

/-- A context makes a use of mailbox m. -/
abbrev RxContext.Uses (c : RxContext) (m : BoxId) (u : Use) : Prop := c.use = some u ∧ c.mailbox = m

theorem use_eq_write {c : RxContext} : c.use = some .write ↔ c.phase = .writing := by
  cases hp : c.phase <;> simp [RxContext.use, hp]

theorem use_eq_read {c : RxContext} : c.use = some .read ↔ c.phase = .reading ∧ c.fill = false := by
  cases hp : c.phase <;> simp [RxContext.use, hp]

theorem use_eq_hold {c : RxContext} : c.use = some .hold ↔ c.phase = .holding := by
  cases hp : c.phase <;> simp [RxContext.use, hp]

theorem uses_read_iff {c : RxContext} {m : BoxId} : c.Uses m .read ↔ readsFrom c m := by
  rw [RxContext.Uses, use_eq_read, and_assoc]

/-- What MailboxInv reads: the mailboxes and the receive contexts. -/
structure Mail where
  box : BoxId → Mailbox
  ctx : Seg → RxContext

/-- The mail of a state. -/
def State.mail (s : State) : Mail := ⟨s.box, s.ctx⟩

/-- The mailboxes are in their ranges and each use of one is made by one context: what MailboxInv says while no DEVICE_RESET runs. -/
structure Mail.InOrder (v : Mail) : Prop where
  ranges : ∀ m : BoxId, BoxInv (v.box m)
  timers : ∀ g : Seg, (v.ctx g).holdTimer.isSome = true ↔ (v.ctx g).phase = .holding
  counts : ∀ (g : Seg) (m : BoxId), (v.ctx g).Uses m .read → (v.ctx g).count ≤ (v.box m).outLength
  serves : ∀ (g : Seg) (m : BoxId) (u : Use), (v.ctx g).Uses m u → (v.box m).Serves u
  alone : ∀ (g h : Seg) (m : BoxId) (u : Use), (v.ctx g).Uses m u → (v.ctx h).Uses m u → g = h
  used : ∀ (m : BoxId) (u : Use), u ≠ .hold → (v.box m).Serves u → ∃ g : Seg, (v.ctx g).Uses m u

theorem mailboxInv_of_mailInOrder {s : State} (h : s.mail.InOrder) : MailboxInv s := by
  obtain ⟨ranges, timers, counts, serves, alone, used⟩ := h
  have write : ∀ g m, writesTo (s.ctx g) m ↔ (s.mail.ctx g).Uses m .write := fun g m => and_congr_left' use_eq_write.symm
  have read : ∀ g m, readsFrom (s.ctx g) m ↔ (s.mail.ctx g).Uses m .read := fun g m => uses_read_iff.symm
  have hold : ∀ g m, holdsOn (s.ctx g) m ↔ (s.mail.ctx g).Uses m .hold := fun g m => and_congr_left' use_eq_hold.symm
  refine ⟨ranges, ?_, ?_, ?_, ?_, ?_, ?_, ?_, ?_, timers⟩ <;> simp only [write, read, hold]
  · exact fun g m => serves g m .write
  · exact fun g m hr => ⟨serves g m .read hr, counts g m hr⟩
  · exact fun g m => serves g m .hold
  · exact fun g j m => alone g j m .write
  · exact fun g j m => alone g j m .read
  · exact fun g j m => alone g j m .hold
  · exact fun _ m => used m .write (by simp)
  · exact fun _ m => used m .read (by simp)

theorem mailInOrder_of_mailboxInv {s : State} (h : MailboxInv s) (hb : s.win.resetBusy = false) : s.mail.InOrder where
  ranges := h.ranges
  timers := h.holdTimer
  counts g m hr := (h.reading g m (uses_read_iff.mp hr)).2
  serves g m u hu := match u with
    | .write => h.writing g m (hu.imp_left use_eq_write.mp)
    | .read => (h.reading g m (uses_read_iff.mp hu)).1
    | .hold => h.holding g m (hu.imp_left use_eq_hold.mp)
  alone g j m u hg hj := match u with
    | .write => h.oneWriter g j m (hg.imp_left use_eq_write.mp) (hj.imp_left use_eq_write.mp)
    | .read => h.oneReader g j m (uses_read_iff.mp hg) (uses_read_iff.mp hj)
    | .hold => h.oneHolder g j m (hg.imp_left use_eq_hold.mp) (hj.imp_left use_eq_hold.mp)
  used m u hu hs := match u with
    | .write => (h.filled hb m hs).imp fun _ hg => hg.imp_left use_eq_write.mpr
    | .read => (h.sent hb m hs).imp fun _ hg => uses_read_iff.mpr hg
    | .hold => absurd rfl hu

/-- MailboxInv reads the mail and whether a DEVICE_RESET runs. -/
theorem mailboxInv_congr {s t : State} (hmail : t.mail = s.mail) (hbusy : t.win.resetBusy = s.win.resetBusy) (h : MailboxInv s) :
    MailboxInv t := by
  have hbox : ∀ m, t.box m = s.box m := congrFun (congrArg Mail.box hmail)
  have hctx : ∀ g, t.ctx g = s.ctx g := congrFun (congrArg Mail.ctx hmail)
  obtain ⟨⟩ := h
  constructor <;> simpa only [hbox, hctx, hbusy]

/-! ### One context and one mailbox change -/

/-- No context makes a use of mailbox m. -/
def Mail.Unused (v : Mail) (m : BoxId) (u : Use) : Prop := ∀ g : Seg, ¬ (v.ctx g).Uses m u

theorem Mail.InOrder.unused {v : Mail} (h : v.InOrder) {m : BoxId} {u : Use} (hs : ¬ (v.box m).Serves u) : v.Unused m u :=
  fun g hu => hs (h.serves g m u hu)

/-- The context of g becomes c and mailbox m becomes b. -/
def Mail.put (v : Mail) (g : Seg) (m : BoxId) (c : RxContext) (b : Mailbox) : Mail :=
  ⟨Function.update v.box m b, Function.update v.ctx g c⟩

/-- The context of g, which uses no other mailbox than m, can become c as mailbox m becomes b: it takes a use that no other context makes, and
what the others make of m stays as it is. -/
structure Mail.HandsOver (v : Mail) (g : Seg) (m : BoxId) (c : RxContext) (b : Mailbox) : Prop where
  before : (v.ctx g).use = none ∨ (v.ctx g).mailbox = m
  after : c.use = none ∨ c.mailbox = m
  range : BoxInv b
  timer : c.holdTimer.isSome = true ↔ c.phase = .holding
  count : c.use = some .read → c.count ≤ b.outLength
  taken : ∀ u : Use, c.use = some u → b.Serves u ∧ ((v.ctx g).use = some u ∨ v.Unused m u)
  kept : ∀ u : Use, (v.box m).Serves u → b.Serves u ∨ (v.ctx g).use = some u ∨ v.Unused m u
  given : ∀ u : Use, u ≠ .hold → b.Serves u → c.use = some u ∨ (v.box m).Serves u ∧ (v.ctx g).use ≠ some u
  length : b.outState = .sending → c.use = some .read ∨ b.outLength = (v.box m).outLength

theorem Mail.put_ctx_self (v : Mail) (g : Seg) (m : BoxId) (c : RxContext) (b : Mailbox) : (v.put g m c b).ctx g = c :=
  Function.update_self ..

theorem Mail.put_ctx_of_ne (v : Mail) {g j : Seg} (m : BoxId) (c : RxContext) (b : Mailbox) (hj : j ≠ g) :
    (v.put g m c b).ctx j = v.ctx j := Function.update_of_ne hj ..

theorem Mail.put_box_self (v : Mail) (g : Seg) (m : BoxId) (c : RxContext) (b : Mailbox) : (v.put g m c b).box m = b :=
  Function.update_self ..

theorem Mail.put_box_of_ne (v : Mail) (g : Seg) {m j : BoxId} (c : RxContext) (b : Mailbox) (hj : j ≠ m) :
    (v.put g m c b).box j = v.box j := Function.update_of_ne hj ..

section

variable {v : Mail} {g : Seg} {m : BoxId} {c : RxContext} {b : Mailbox}

theorem Mail.HandsOver.mailbox_before (hh : v.HandsOver g m c b) {u : Use} (hu : (v.ctx g).use = some u) : (v.ctx g).mailbox = m :=
  hh.before.resolve_left fun hn => nomatch hn.symm.trans hu

theorem Mail.HandsOver.mailbox_after (hh : v.HandsOver g m c b) {u : Use} (hu : c.use = some u) : c.mailbox = m :=
  hh.after.resolve_left fun hn => nomatch hn.symm.trans hu

/-- The use that another context makes of m is not taken, and m goes on serving it. -/
theorem Mail.HandsOver.others (hh : v.HandsOver g m c b) (h : v.InOrder) {j : Seg} {u : Use} (hj : j ≠ g) (hu : (v.ctx j).Uses m u) :
    c.use ≠ some u ∧ b.Serves u := by
  have hfree : ¬ ((v.ctx g).use = some u ∨ v.Unused m u) := fun hor =>
    hor.elim (fun hug => hj (h.alone j g m u hu ⟨hug, hh.mailbox_before hug⟩)) fun hn => hn j hu
  exact ⟨fun hc => hfree (hh.taken u hc).2, (hh.kept u (h.serves j m u hu)).resolve_right hfree⟩

/-- Every use that a context makes after the change is served, and the bytes read are those of the buffer. -/
theorem Mail.HandsOver.serves (hh : v.HandsOver g m c b) (h : v.InOrder) {j : Seg} {k : BoxId} {u : Use}
    (hu : ((v.put g m c b).ctx j).Uses k u) :
    ((v.put g m c b).box k).Serves u ∧ (u = .read → ((v.put g m c b).ctx j).count ≤ ((v.put g m c b).box k).outLength) := by
  by_cases hj : j = g
  · rw [hj, v.put_ctx_self] at hu ⊢
    rw [← hu.2, hh.mailbox_after hu.1, v.put_box_self]
    exact ⟨(hh.taken u hu.1).1, fun hr => hh.count (hr ▸ hu.1)⟩
  · rw [v.put_ctx_of_ne m c b hj] at hu ⊢
    by_cases hk : k = m
    · rw [hk] at hu ⊢
      obtain ⟨hc, hs⟩ := hh.others h hj hu
      rw [v.put_box_self]
      refine ⟨hs, fun hr => ?_⟩
      subst hr
      rw [(hh.length hs).resolve_left hc]
      exact h.counts j m hu
    · rw [v.put_box_of_ne g c b hk]
      exact ⟨h.serves j k u hu, fun hr => h.counts j k (hr ▸ hu)⟩

/-- A use that the context of g makes after the change is made by no other context. -/
theorem Mail.HandsOver.alone (hh : v.HandsOver g m c b) (h : v.InOrder) {j : Seg} {k : BoxId} {u : Use} (hj : j ≠ g) (hg : c.Uses k u) :
    ¬ (v.ctx j).Uses k u := fun hu => by
  rw [← hg.2, hh.mailbox_after hg.1] at hu
  exact (hh.others h hj hu).1 hg.1

/-- A mailbox that serves after the change is used by a context. -/
theorem Mail.HandsOver.used (hh : v.HandsOver g m c b) (h : v.InOrder) {k : BoxId} {u : Use} (hne : u ≠ .hold)
    (hs : ((v.put g m c b).box k).Serves u) : ∃ j, ((v.put g m c b).ctx j).Uses k u := by
  have other : (v.box k).Serves u → ¬ (v.ctx g).Uses k u → ∃ j, ((v.put g m c b).ctx j).Uses k u := fun hsk hn => by
    obtain ⟨j, hj⟩ := h.used k u hne hsk
    have hjg : j ≠ g := fun he => hn (he ▸ hj)
    exact ⟨j, (v.put_ctx_of_ne m c b hjg).symm ▸ hj⟩
  by_cases hk : k = m
  · subst hk
    rw [v.put_box_self] at hs
    obtain hc | ⟨hsk, hn⟩ := hh.given u hne hs
    · exact ⟨g, by rw [v.put_ctx_self]; exact ⟨hc, hh.mailbox_after hc⟩⟩
    · exact other hsk fun hu => hn hu.1
  · rw [v.put_box_of_ne g c b hk] at hs
    exact other hs fun hu => hk (hu.2.symm.trans (hh.mailbox_before hu.1))

theorem Mail.InOrder.handOver (h : v.InOrder) (hh : v.HandsOver g m c b) : (v.put g m c b).InOrder where
  ranges j := by
    by_cases hj : j = m
    · rw [hj, v.put_box_self]; exact hh.range
    · rw [v.put_box_of_ne g c b hj]; exact h.ranges j
  timers j := by
    by_cases hj : j = g
    · rw [hj, v.put_ctx_self]; exact hh.timer
    · rw [v.put_ctx_of_ne m c b hj]; exact h.timers j
  counts _ _ hu := (hh.serves h hu).2 rfl
  serves _ _ _ hu := (hh.serves h hu).1
  alone j l k u hj hl := by
    by_cases hjg : j = g <;> by_cases hlg : l = g
    · rw [hjg, hlg]
    · rw [hjg, v.put_ctx_self] at hj
      rw [v.put_ctx_of_ne m c b hlg] at hl
      exact absurd hl (hh.alone h hlg hj)
    · rw [hlg, v.put_ctx_self] at hl
      rw [v.put_ctx_of_ne m c b hjg] at hj
      exact absurd hj (hh.alone h hjg hl)
    · rw [v.put_ctx_of_ne m c b hjg] at hj
      rw [v.put_ctx_of_ne m c b hlg] at hl
      exact h.alone j l k u hj hl
  used _ _ hne hs := hh.used h hne hs

end

/-- A mailbox alone changes to b: what its contexts make of it stays as it is. -/
theorem Mail.InOrder.changeBox {v w : Mail} (h : v.InOrder) {m : BoxId} (hctx : w.ctx = v.ctx) (hbox : ∀ j, j ≠ m → w.box j = v.box j)
    (range : BoxInv (w.box m)) (kept : ∀ u, (v.box m).Serves u → (w.box m).Serves u ∨ v.Unused m u)
    (given : ∀ u, u ≠ .hold → (w.box m).Serves u → (v.box m).Serves u)
    (length : (v.box m).outState = .sending → (w.box m).outLength = (v.box m).outLength) : w.InOrder := by
  refine ⟨fun j => ?_, fun g => ?_, fun g k hu => ?_, fun g k u hu => ?_, ?_, fun k u hne hs => ?_⟩
  · by_cases hj : j = m
    · exact hj ▸ range
    · rw [hbox j hj]; exact h.ranges j
  · rw [hctx]; exact h.timers g
  · rw [hctx] at hu ⊢
    by_cases hk : k = m
    · rw [hk] at hu ⊢
      rw [length (h.serves g m .read hu)]; exact h.counts g m hu
    · rw [hbox k hk]; exact h.counts g k hu
  · rw [hctx] at hu
    by_cases hk : k = m
    · rw [hk] at hu ⊢
      exact (kept u (h.serves g m u hu)).resolve_right fun hn => hn g hu
    · rw [hbox k hk]; exact h.serves g k u hu
  · rw [hctx]; exact h.alone
  · rw [hctx]
    by_cases hk : k = m
    · rw [hk] at hs ⊢
      exact h.used m u hne (given u hne hs)
    · rw [hbox k hk] at hs; exact h.used k u hne hs

end Sys2Proof.Machine
end

section
/-! SUPPORT. The mail under the updates of the state and under the operations by which a context begins, carries and ends its part in a transfer
(chapter 8). -/

namespace Sys2Proof.Machine

open Sys2Proof.Safety Sys2Proof.Claims

/-! ### The updates -/

theorem mail_congr {s t : State} (hbox : ∀ m, t.box m = s.box m) (hctx : ∀ g, t.ctx g = s.ctx g) : t.mail = s.mail :=
  congrArg₂ Mail.mk (funext hbox) (funext hctx)

theorem updBox_updBox (s : State) (m : BoxId) (f k : Mailbox → Mailbox) : (s.updBox m f).updBox m k = s.updBox m (fun b => k (f b)) := by
  refine state_ext rfl rfl rfl rfl rfl rfl rfl (boxes_ext fun j => ?_) rfl rfl
  by_cases hj : j = m <;> simp [hj]

@[simp] theorem raise_mail (s : State) (e : EventFlag) : (s.raise e).mail = s.mail := rfl

theorem updSeg_mail_put (s : State) (g : Seg) (f : Segment → Segment) (m : BoxId) :
    (s.updSeg g f).mail = s.mail.put g m (f (s.seg g)).ctx (s.box m) :=
  congrArg₂ Mail.mk (funext fun j => by by_cases hj : j = m <;> simp [hj, State.mail])
    (funext fun j => by by_cases hj : j = g <;> simp [hj, State.mail])

theorem updCtx_mail (s : State) (g : Seg) (k : RxContext → RxContext) (m : BoxId) :
    (s.updCtx g k).mail = s.mail.put g m (k (s.ctx g)) (s.box m) := updSeg_mail_put s g _ m

theorem updBox_updCtx_mail (s : State) (m : BoxId) (f : Mailbox → Mailbox) (g : Seg) (k : RxContext → RxContext) :
    ((s.updBox m f).updCtx g k).mail = s.mail.put g m (k (s.ctx g)) (f (s.box m)) :=
  congrArg₂ Mail.mk (funext fun j => by by_cases hj : j = m <;> simp [hj, State.mail])
    (funext fun j => by by_cases hj : j = g <;> simp [hj, State.mail])

theorem updBox_raise_updCtx_mail (s : State) (m : BoxId) (f : Mailbox → Mailbox) (e : EventFlag) (g : Seg) (k : RxContext → RxContext) :
    (((s.updBox m f).raise e).updCtx g k).mail = s.mail.put g m (k (s.ctx g)) (f (s.box m)) :=
  updBox_updCtx_mail s m f g k

/-- A mailbox alone changes: what its contexts make of it stays as it is. -/
theorem updBox_mailInOrder {s : State} (h : s.mail.InOrder) {m : BoxId} {f : Mailbox → Mailbox} (range : BoxInv (f (s.box m)))
    (kept : ∀ u, (s.box m).Serves u → (f (s.box m)).Serves u ∨ s.mail.Unused m u)
    (given : ∀ u, u ≠ .hold → (f (s.box m)).Serves u → (s.box m).Serves u)
    (length : (s.box m).outState = .sending → (f (s.box m)).outLength = (s.box m).outLength) : (s.updBox m f).mail.InOrder := by
  have hm : (s.updBox m f).mail.box m = f (s.box m) := by simp [State.mail]
  refine h.changeBox (m := m) rfl (fun j hj => by simp [State.mail, hj]) ?_ ?_ ?_ ?_ <;> rw [hm]
  · exact range
  · exact kept
  · exact given
  · exact length

/-! ### A context ends its part in a transfer -/

/-- A context in a phase that serves no mailbox holds nothing. -/
theorem inPhase_timer {p : Phase} (hp : (RxContext.inPhase p).use = none) :
    (RxContext.inPhase p).holdTimer.isSome = true ↔ (RxContext.inPhase p).phase = .holding :=
  iff_of_false (by simp [RxContext.inPhase]) fun h => nomatch hp.symm.trans (use_eq_hold.mpr h)

/-- A context gives up its mailbox: the use that it made is no longer made, and the other uses stay as they are. -/
theorem Mail.InOrder.giveUp {v : Mail} (h : v.InOrder) (g : Seg) {p : Phase} (hp : (RxContext.inPhase p).use = none) {b : Mailbox}
    (range : BoxInv b) (kept : ∀ u, (v.box (v.ctx g).mailbox).Serves u → b.Serves u ∨ (v.ctx g).use = some u)
    (given : ∀ u, u ≠ .hold → b.Serves u → (v.box (v.ctx g).mailbox).Serves u ∧ (v.ctx g).use ≠ some u)
    (length : b.outState = .sending → b.outLength = (v.box (v.ctx g).mailbox).outLength) :
    (v.put g (v.ctx g).mailbox (RxContext.inPhase p) b).InOrder :=
  h.handOver {
    before := .inr rfl
    after := .inl hp
    range := range
    timer := inPhase_timer hp
    count := fun hu => nomatch hp.symm.trans hu
    taken := fun _ hu => nomatch hp.symm.trans hu
    kept := fun u hu => (kept u hu).imp_right .inl
    given := fun u hne hu => .inr (given u hne hu)
    length := fun hs => .inr (length hs) }

/-- A context that neither writes nor reads from a buffer leaves its mailbox as it is. -/
theorem Mail.InOrder.leave {v : Mail} (h : v.InOrder) {g : Seg} (hw : (v.ctx g).use ≠ some .write) (hr : (v.ctx g).use ≠ some .read)
    {p : Phase} (hp : (RxContext.inPhase p).use = none) :
    (v.put g (v.ctx g).mailbox (RxContext.inPhase p) (v.box (v.ctx g).mailbox)).InOrder := by
  refine h.giveUp g hp (h.ranges _) (fun u hu => .inl hu) (fun u hne hu => ⟨hu, fun hg => ?_⟩) fun _ => rfl
  cases u with
  | write => exact hw hg
  | read => exact hr hg
  | hold => exact hne rfl

theorem updCtx_leaves {s : State} (h : s.mail.InOrder) {g : Seg} (hw : (s.ctx g).use ≠ some .write) (hr : (s.ctx g).use ≠ some .read)
    {p : Phase} (hp : (RxContext.inPhase p).use = none) : (s.updCtx g (fun _ => RxContext.inPhase p)).mail.InOrder := by
  rw [updCtx_mail s g _ (s.ctx g).mailbox]
  exact h.leave hw hr hp

/-- The remote write of a context ends, and its buffer is no longer FILLING. -/
theorem Mail.InOrder.giveUpWrite {v : Mail} (h : v.InOrder) {g : Seg} (hg : (v.ctx g).use = some .write) {p : Phase}
    (hp : (RxContext.inPhase p).use = none) {st : InboundState} {n : Nat} (hst : st ≠ .filling)
    (range : BoxInv { v.box (v.ctx g).mailbox with inState := st, inLength := n }) :
    (v.put g (v.ctx g).mailbox (RxContext.inPhase p) { v.box (v.ctx g).mailbox with inState := st, inLength := n }).InOrder := by
  refine h.giveUp g hp range (fun u hs => ?_) (fun u hne hs => ?_) fun _ => rfl
  · cases u with
    | write => exact .inr hg
    | read | hold => exact .inl hs
  · cases u with
    | write => exact absurd hs hst
    | read => exact ⟨hs, by simp [hg]⟩
    | hold => exact absurd rfl hne

/-- The remote read of a context ends, and its buffer is no longer SENDING. -/
theorem Mail.InOrder.giveUpRead {v : Mail} (h : v.InOrder) {g : Seg} (hg : (v.ctx g).use = some .read) {p : Phase}
    (hp : (RxContext.inPhase p).use = none) {st : OutboundState} {n k : Nat} (hst : st ≠ .sending)
    (range : BoxInv { v.box (v.ctx g).mailbox with outState := st, outLength := n, lastRead := k }) :
    (v.put g (v.ctx g).mailbox (RxContext.inPhase p)
      { v.box (v.ctx g).mailbox with outState := st, outLength := n, lastRead := k }).InOrder := by
  have hsending : (v.box (v.ctx g).mailbox).outState = .sending := h.serves g _ .read ⟨hg, rfl⟩
  refine h.giveUp g hp range (fun u hs => ?_) (fun u hne hs => ?_) fun hs => absurd hs hst
  · cases u with
    | write => exact .inl hs
    | read => exact .inr hg
    | hold => exact nomatch hsending.symm.trans hs
  · cases u with
    | write => exact ⟨hs, by simp [hg]⟩
    | read => exact absurd hs hst
    | hold => exact absurd rfl hne

/-- A start or a stop ends a remote write and a remote read (R157, R160, R162). -/
theorem endPhase_updCtx_mailInOrder {s : State} (h : s.mail.InOrder) (g : Seg) {p : Phase} (hp : (RxContext.inPhase p).use = none) :
    ((endPhase g s).updCtx g (fun _ => RxContext.inPhase p)).mail.InOrder := by
  have hbox := h.ranges (s.ctx g).mailbox
  cases hphase : (s.ctx g).phase with
  | writing =>
    have huse : (s.mail.ctx g).use = some .write := use_eq_write.mpr hphase
    by_cases hl : 1 ≤ (s.box (s.ctx g).mailbox).inLength
    · have hend : endPhase g s = (s.updBox (s.ctx g).mailbox (fun b => { b with inState := .full })).raise .mbInbound := by
        simp [endPhase, hphase, endRemoteWrite, hl]
      rw [hend, updBox_raise_updCtx_mail]
      exact h.giveUpWrite huse hp (by simp) { hbox with inEmpty := nofun, inFull := fun _ => hl }
    · have hend : endPhase g s = s.updBox (s.ctx g).mailbox (fun b => { b with inState := .empty }) := by
        simp [endPhase, hphase, endRemoteWrite, hl]
      rw [hend, updBox_updCtx_mail]
      exact h.giveUpWrite huse hp (by simp) { hbox with inEmpty := fun _ => Nat.lt_one_iff.mp (Nat.not_le.mp hl), inFull := nofun }
  | reading =>
    cases hfill : (s.ctx g).fill with
    | true =>
      have hend : endPhase g s = s.updBox (s.ctx g).mailbox (fun b => { b with lastRead := 0 }) := by
        simp [endPhase, hphase, hfill, endFillRead]
      have huse : (s.mail.ctx g).use = none := by simp [State.mail, RxContext.use, hphase, hfill]
      rw [hend, updBox_updCtx_mail]
      refine h.giveUp g hp { hbox with lastRead := by simp } (fun u hs => .inl ?_) (fun u _ hs => ⟨?_, by simp [huse]⟩) fun _ => rfl
      · cases u <;> exact hs
      · cases u <;> exact hs
    | false =>
      have hend : endPhase g s = s.updBox (s.ctx g).mailbox (fun b => { b with
          outState := .empty, outLength := 0, lastRead := (s.ctx g).count }) := by
        simp [endPhase, hphase, hfill, endRemoteRead]
      have huse : (s.mail.ctx g).use = some .read := use_eq_read.mpr ⟨hphase, hfill⟩
      have hcount : (s.ctx g).count ≤ 32 := (h.counts g _ ⟨huse, rfl⟩).trans hbox.outLength
      rw [hend, updBox_updCtx_mail]
      exact h.giveUpRead huse hp (by simp)
        { hbox with outLength := by simp, outEmpty := fun _ => rfl, outLoaded := fun hne => absurd rfl hne, lastRead := hcount }
  | listen | address | unaddressed | holding =>
    rw [endPhase_idle g s (by simp [hphase]) (by simp [hphase])]
    exact updCtx_leaves h (by simp [use_eq_write, hphase]) (by simp [use_eq_read, hphase]) hp

theorem contextStart_mailInOrder {s : State} (h : s.mail.InOrder) (g : Seg) : (contextStart g s).mail.InOrder := endPhase_updCtx_mailInOrder h g rfl

theorem contextStop_mailInOrder {s : State} (h : s.mail.InOrder) (g : Seg) : (contextStop g s).mail.InOrder := endPhase_updCtx_mailInOrder h g rfl

/-- A context that is cut off loses what it has written and gives back what it reads (R167). -/
theorem endContext_mailInOrder {s : State} (h : s.mail.InOrder) (g : Seg) : (endContext g s).mail.InOrder := by
  have hbox := h.ranges (s.ctx g).mailbox
  have hleave := updCtx_leaves h (g := g) (p := .listen)
  cases hphase : (s.ctx g).phase with
  | writing =>
    have hend : endContext g s = ((s.updBox (s.ctx g).mailbox (fun b => { b with inState := .empty, inLength := 0 })).raise
        .inboundLost).updCtx g (fun _ => RxContext.inPhase .listen) := by
      simp [endContext, hphase]
    rw [hend, updBox_raise_updCtx_mail]
    exact h.giveUpWrite (use_eq_write.mpr hphase) (p := .listen) rfl (by simp)
      { hbox with inLength := by simp, inEmpty := fun _ => rfl, inFull := nofun }
  | reading =>
    cases hfill : (s.ctx g).fill with
    | true =>
      have hend : endContext g s = s.updCtx g (fun _ => RxContext.inPhase .listen) := by simp [endContext, hphase, hfill]
      exact hend ▸ hleave (by simp [use_eq_write, hphase]) (by simp [use_eq_read, hfill]) rfl
    | false =>
      have hend : endContext g s = (s.updBox (s.ctx g).mailbox (fun b => { b with outState := .loaded })).updCtx g
          (fun _ => RxContext.inPhase .listen) := by
        simp [endContext, hphase, hfill]
      have huse : (s.mail.ctx g).use = some .read := use_eq_read.mpr ⟨hphase, hfill⟩
      have hsending : (s.box (s.ctx g).mailbox).outState = .sending := h.serves g _ .read ⟨huse, rfl⟩
      rw [hend, updBox_updCtx_mail]
      exact h.giveUpRead huse rfl (by simp) { hbox with outEmpty := nofun, outLoaded := fun _ => hbox.outLoaded fun he => nomatch hsending.symm.trans he }
  | listen | address | unaddressed | holding =>
    have hend : endContext g s = s.updCtx g (fun _ => RxContext.inPhase .listen) := by simp [endContext, hphase]
    exact hend ▸ hleave (by simp [use_eq_write, hphase]) (by simp [use_eq_read, hphase]) rfl

/-! ### A context takes a mailbox -/

theorem latchMatch_timer (e : EntryId) (x : MatchEntry) (d : Direction) (p : Phase) :
    (latchMatch e x d p).holdTimer.isSome = true ↔ (latchMatch e x d p).phase = .holding := by
  by_cases hp : p = .holding <;> simp [latchMatch, hp]

theorem leaveAddress_mailInOrder {s : State} (h : s.mail.InOrder) {g : Seg} (hg : (s.ctx g).use = none) : (leaveAddress g s).mail.InOrder :=
  updCtx_leaves h (by simp [hg]) (by simp [hg]) rfl

/-- A matched write takes an EMPTY inbound buffer (R155). -/
theorem answerWrite_mailInOrder {s : State} (h : s.mail.InOrder) {g : Seg} (hg : (s.ctx g).use = none) (e : EntryId) :
    (answerWrite g e s).mail.InOrder := by
  have hbox := h.ranges (s.entry e).mailbox
  unfold answerWrite
  dsimp only
  split
  · rename_i hempty
    rw [updBox_updCtx_mail]
    exact h.handOver {
      before := .inl hg
      after := .inr rfl
      range := { hbox with inLength := by simp, inEmpty := fun _ => rfl, inFull := nofun }
      timer := latchMatch_timer ..
      count := nofun
      taken := fun u hu => by
        cases hu
        exact ⟨rfl, .inr (h.unused fun hs => nomatch hempty.symm.trans hs)⟩
      kept := fun u hs => match u with
        | .write => .inl rfl
        | .read | .hold => .inl hs
      given := fun u hne hs => match u with
        | .write => .inl rfl
        | .read => .inr ⟨hs, fun hc => nomatch hg.symm.trans hc⟩
        | .hold => absurd rfl hne
      length := fun _ => .inr rfl }
  · exact leaveAddress_mailInOrder h hg

theorem holder_eq_none {s : State} {m : BoxId} : s.holder m = none ↔ s.mail.Unused m .hold := by
  have hseg : ∀ g : Seg, g ∈ allSegs := by decide
  simp only [State.holder, List.find?_eq_none, hseg, true_implies, Bool.and_eq_true, decide_eq_true_eq, Mail.Unused, RxContext.Uses,
    use_eq_hold]
  rfl

theorem uses_of_holder {s : State} {m : BoxId} {g : Seg} (h : s.holder m = some g) : (s.mail.ctx g).Uses m .hold := by
  have hfound := List.find?_some h
  simp only [Bool.and_eq_true, decide_eq_true_eq] at hfound
  exact ⟨use_eq_hold.mpr hfound.1, hfound.2⟩

/-- A matched read takes a LOADED outbound buffer, or is held on an EMPTY one (R158, R161). -/
theorem answerRead_mailInOrder {s : State} (h : s.mail.InOrder) {g : Seg} (hg : (s.ctx g).use = none) (e : EntryId) :
    (answerRead g e s).mail.InOrder := by
  have hbox := h.ranges (s.entry e).mailbox
  have hfree : ∀ u, (s.ctx g).use ≠ some u := fun u hc => nomatch hg.symm.trans hc
  unfold answerRead
  dsimp only
  split
  · rename_i hloaded
    rw [updBox_updCtx_mail]
    exact h.handOver {
      before := .inl hg
      after := .inr rfl
      range := { hbox with outEmpty := nofun, outLoaded := fun _ => hbox.outLoaded fun he => nomatch hloaded.symm.trans he }
      timer := latchMatch_timer ..
      count := fun _ => Nat.zero_le _
      taken := fun u hu => by
        cases hu
        exact ⟨rfl, .inr (h.unused fun hs => nomatch hloaded.symm.trans hs)⟩
      kept := fun u hs => match u with
        | .write => .inl hs
        | .read => .inl rfl
        | .hold => nomatch hloaded.symm.trans hs
      given := fun u hne hs => match u with
        | .write => .inr ⟨hs, hfree _⟩
        | .read => .inl rfl
        | .hold => absurd rfl hne
      length := fun _ => .inl rfl }
  · exact leaveAddress_mailInOrder h hg
  · rename_i hempty
    split
    · rename_i hhold
      have hunused := holder_eq_none.mp (Option.isNone_iff_eq_none.mp hhold.1)
      rw [updCtx_mail s g _ (s.entry e).mailbox]
      exact h.handOver {
        before := .inl hg
        after := .inr rfl
        range := hbox
        timer := latchMatch_timer ..
        count := nofun
        taken := fun u hu => by cases hu; exact ⟨hempty, .inr hunused⟩
        kept := fun u hs => .inl hs
        given := fun u hne hs => .inr ⟨hs, hfree u⟩
        length := fun _ => .inr rfl }
    · exact leaveAddress_mailInOrder h hg

theorem evaluateAddress_mailInOrder {s : State} (h : s.mail.InOrder) {g : Seg} (hg : (s.ctx g).use = none) (b : Byte) :
    (evaluateAddress g b s).mail.InOrder := by
  unfold evaluateAddress
  split
  · exact leaveAddress_mailInOrder h hg
  · split
    · exact answerWrite_mailInOrder h hg _
    · exact answerRead_mailInOrder h hg _

/-! ### A context carries on -/

/-- A context goes on with the use that it makes of its mailbox, which stays in the states that its uses ask for. -/
theorem Mail.InOrder.carryOn {v : Mail} (h : v.InOrder) {g : Seg} {c : RxContext} {b : Mailbox} (huse : c.use = (v.ctx g).use)
    (hmailbox : c.mailbox = (v.ctx g).mailbox) (range : BoxInv b) (timer : c.holdTimer.isSome = true ↔ c.phase = .holding)
    (count : c.use = some .read → c.count ≤ b.outLength)
    (hin : b.inState = (v.box (v.ctx g).mailbox).inState) (hout : b.outState = (v.box (v.ctx g).mailbox).outState)
    (length : b.outLength = (v.box (v.ctx g).mailbox).outLength) : (v.put g (v.ctx g).mailbox c b).InOrder := by
  have hserves : ∀ u, b.Serves u ↔ (v.box (v.ctx g).mailbox).Serves u := fun u => by
    cases u <;> simp only [Mailbox.Serves, hin, hout]
  exact h.handOver {
    before := .inr rfl
    after := .inr hmailbox
    range := range
    timer := timer
    count := count
    taken := fun u hu => ⟨(hserves u).mpr (h.serves g _ u ⟨huse ▸ hu, rfl⟩), .inl (huse ▸ hu)⟩
    kept := fun u hs => .inl ((hserves u).mpr hs)
    given := fun u _ hs => (em (c.use = some u)).imp id fun hc => ⟨(hserves u).mp hs, huse ▸ hc⟩
    length := fun _ => .inr length }

/-- A context changes beside its use of its mailbox. -/
theorem updCtx_carriesOn {s : State} (h : s.mail.InOrder) (g : Seg) {k : RxContext → RxContext} (huse : (k (s.ctx g)).use = (s.ctx g).use)
    (hmailbox : (k (s.ctx g)).mailbox = (s.ctx g).mailbox)
    (timer : (k (s.ctx g)).holdTimer.isSome = true ↔ (k (s.ctx g)).phase = .holding)
    (count : (s.ctx g).use = some .read → (k (s.ctx g)).count ≤ (s.box (s.ctx g).mailbox).outLength) : (s.updCtx g k).mail.InOrder := by
  rw [updCtx_mail s g k (s.ctx g).mailbox]
  exact h.carryOn huse hmailbox (h.ranges _) timer (fun hc => count (huse ▸ hc)) rfl rfl rfl

/-- A byte of a remote write is stored while there is room for it (R156). -/
theorem receiveByte_mailInOrder {s : State} (h : s.mail.InOrder) {g : Seg} (hg : (s.ctx g).phase = .writing) (b : Byte) :
    (receiveByte g (s.ctx g).mailbox b s).mail.InOrder := by
  have hbox := h.ranges (s.ctx g).mailbox
  have huse : (s.ctx g).use = some .write := use_eq_write.mpr hg
  have hfilling : (s.box (s.ctx g).mailbox).inState = .filling := h.serves g _ .write ⟨huse, rfl⟩
  have htimer := h.timers g
  have hnack : ∀ o : RxContext → Bool, (s.updCtx g (fun c => { c with count := c.count + 1, acked := false, overflow := o c })).mail.InOrder := fun o =>
    updCtx_carriesOn h g rfl rfl htimer fun hr => nomatch huse.symm.trans hr
  unfold receiveByte
  split
  · rename_i hroom
    rw [updBox_updCtx_mail]
    refine h.carryOn (c := { s.ctx g with count := (s.ctx g).count + 1, acked := true }) rfl rfl ?_ htimer (fun hr => nomatch huse.symm.trans hr)
      rfl rfl rfl
    exact { hbox with
      inLength := hroom, inEmpty := fun he => (nomatch hfilling.symm.trans he), inFull := fun _ => Nat.succ_pos _ }
  · split
    · exact hnack (·.overflow)
    · exact hnack fun _ => true

/-- A byte of a remote read comes from the buffer while it lasts (R159). -/
theorem sendByte_mailInOrder {s : State} (h : s.mail.InOrder) (g : Seg) (ack : Bool) : (sendByte g ack s).mail.InOrder := by
  have htimer := h.timers g
  have hcount : (s.ctx g).use = some .read → (s.ctx g).count ≤ (s.box (s.ctx g).mailbox).outLength := fun hu => h.counts g _ ⟨hu, rfl⟩
  unfold sendByte
  dsimp only
  split
  · rename_i hlasts
    exact updCtx_carriesOn h g rfl rfl htimer fun _ => hlasts.2
  · split
    · exact updCtx_carriesOn h g rfl rfl htimer hcount
    · exact updCtx_carriesOn (k := fun c => { c with sent := _, stopped := _, underflow := true }) h g rfl rfl htimer hcount

/-! ### Held reads and the mailbox commands -/

/-- A held read that is served with the fill byte leaves its mailbox alone (R162). -/
theorem serveFill_mailInOrder {s : State} (h : s.mail.InOrder) {g : Seg} (hg : (s.ctx g).phase = .holding) : (serveFill g s).mail.InOrder := by
  have huse : (s.ctx g).use = some .hold := use_eq_hold.mpr hg
  have hfilled : ({ s.ctx g with
      phase := .reading, count := 0, fill := true, underflow := true, stopped := false, holdTimer := none } : RxContext).use = none := rfl
  unfold serveFill
  rw [raise_mail, updCtx_mail s g _ (s.ctx g).mailbox]
  exact h.handOver {
    before := .inr rfl
    after := .inr rfl
    range := h.ranges _
    timer := iff_of_false (by simp) (by simp)
    count := fun hr => nomatch hfilled.symm.trans hr
    taken := fun u hu => nomatch hfilled.symm.trans hu
    kept := fun u hs => .inl hs
    given := fun u hne hs => .inr ⟨hs, fun hc => hne (Option.some.inj (hc.symm.trans huse))⟩
    length := fun _ => .inr rfl }

/-- RELEASE_INBOUND empties a FULL buffer (R163). -/
theorem releaseInbound_mailInOrder {s : State} (h : s.mail.InOrder) (m : BoxId) : (releaseInbound m s).state.mail.InOrder := by
  unfold releaseInbound
  split
  · rename_i hfull
    refine updBox_mailInOrder h { h.ranges m with inLength := by simp, inEmpty := fun _ => rfl, inFull := nofun } (fun u hs => .inl ?_)
      (fun u _ hs => ?_) fun _ => rfl
    · cases u with
      | write => exact nomatch hfull.symm.trans hs
      | read | hold => exact hs
    · cases u with
      | write => exact nomatch hs
      | read | hold => exact hs
  · exact h
  · exact h

/-- A commit on which no read is held leaves the bytes LOADED (R164). -/
theorem commitBytes_mailInOrder {s : State} (h : s.mail.InOrder) {m : BoxId} {n : Nat} (hn : 1 ≤ n ∧ n ≤ 32)
    (hempty : (s.box m).outState = .empty) (hunused : s.mail.Unused m .hold) : (commitBytes m n s).mail.InOrder := by
  refine updBox_mailInOrder h { h.ranges m with outLength := hn.2, outEmpty := nofun, outLoaded := fun _ => hn.1 } (fun u hs => ?_)
    (fun u hne hs => ?_) fun hs => nomatch hempty.symm.trans hs
  · cases u with
    | write => exact .inl hs
    | read => exact nomatch hempty.symm.trans hs
    | hold => exact .inr hunused
  · cases u with
    | write => exact hs
    | read => exact nomatch hs
    | hold => exact absurd rfl hne

/-- A commit on which a read is held hands the bytes to it (R164). -/
theorem commitServe_mailInOrder {s : State} (h : s.mail.InOrder) {m : BoxId} {n : Nat} (hn : 1 ≤ n ∧ n ≤ 32) (hempty : (s.box m).outState = .empty)
    {g : Seg} (hg : (s.mail.ctx g).Uses m .hold) :
    (serveHeld g ((commitBytes m n s).updBox m (fun b => { b with outState := .sending }))).mail.InOrder := by
  obtain ⟨huse, hm⟩ := hg
  unfold serveHeld commitBytes
  rw [updBox_updBox, updBox_updCtx_mail]
  exact h.handOver {
    before := .inr hm
    after := .inr hm
    range := { h.ranges m with outLength := hn.2, outEmpty := nofun, outLoaded := fun _ => hn.1 }
    timer := iff_of_false (by simp) (by simp)
    count := fun _ => Nat.zero_le _
    taken := fun u hu => by
      cases hu
      exact ⟨rfl, .inr (h.unused fun hs => nomatch hempty.symm.trans hs)⟩
    kept := fun u hs => match u with
      | .write => .inl hs
      | .read => nomatch hempty.symm.trans hs
      | .hold => .inr (.inl huse)
    given := fun u hne hs => match u with
      | .write => .inr ⟨hs, fun hc => nomatch huse.symm.trans hc⟩
      | .read => .inl rfl
      | .hold => absurd rfl hne
    length := fun _ => .inl rfl }

theorem commitOutbound_mailInOrder {s : State} (h : s.mail.InOrder) (m : BoxId) : (commitOutbound m s).state.mail.InOrder := by
  unfold commitOutbound
  split
  · exact h
  · rename_i hlength
    have hn : 1 ≤ s.argLength ∧ s.argLength ≤ 32 := by omega
    split
    · rename_i hempty
      dsimp only [accept]
      split
      · rename_i hheld; exact commitServe_mailInOrder h hn hempty (uses_of_holder hheld)
      · rename_i hnone; exact commitBytes_mailInOrder h hn hempty (holder_eq_none.mp hnone)
    · exact h

/-- CANCEL_OUTBOUND withdraws LOADED bytes, or ends a held read with the fill byte (R165). -/
theorem cancelOutbound_mailInOrder {s : State} (h : s.mail.InOrder) (m : BoxId) : (cancelOutbound m s).state.mail.InOrder := by
  unfold cancelOutbound
  split
  · rename_i hloaded
    refine updBox_mailInOrder h
      { h.ranges m with outLength := by simp, outEmpty := fun _ => rfl, outLoaded := fun hne => absurd rfl hne }
      (fun u hs => .inl ?_) (fun u hne hs => ?_) fun hs => nomatch hloaded.symm.trans hs
    · cases u with
      | write => exact hs
      | read | hold => exact nomatch hloaded.symm.trans hs
    · cases u with
      | write => exact hs
      | read => exact nomatch hs
      | hold => exact absurd rfl hne
  · exact h
  · split
    · rename_i hheld; exact serveFill_mailInOrder h (holding_of_holder hheld)
    · exact h

end Sys2Proof.Machine
end

section
/-! SUPPORT. The mail under the operations that the rows share: most of them leave it as it is, and the others begin or end a context's part in a
transfer (chapters 4 to 8). -/

namespace Sys2Proof.Machine

open Sys2Proof.Safety Sys2Proof.Claims

/-! ### What leaves the mail as it is -/

theorem updSeg_mail {s : State} {g : Seg} {f : Segment → Segment} (h : (f (s.seg g)).ctx = s.ctx g) : (s.updSeg g f).mail = s.mail :=
  mail_congr (fun _ => rfl) fun j => by
    by_cases hj : j = g
    · rw [updSeg_ctx, if_pos hj, h, hj]
    · rw [updSeg_ctx, if_neg hj]

theorem mail_of_frame {s t : State} (hboxes : t.boxes = s.boxes) (hsegs : t.segs = s.segs) : t.mail = s.mail :=
  mail_congr (fun m => congrArg (fun v : Vector Mailbox 4 => v[m]) hboxes) fun g => congrArg Segment.ctx (seg_of_segs hsegs g)

@[simp] theorem updSlot_mail (s : State) (n : SlotId) (f : Slot → Slot) : (s.updSlot n f).mail = s.mail := rfl

@[simp] theorem updEntryOf_mail (s : State) (n : SlotId) (f : TargetEntry → TargetEntry) : (s.updEntryOf n f).mail = s.mail :=
  mail_of_frame (updEntryOf_boxes s n f) (updEntryOf_segs s n f)

@[simp] theorem updEngine_mail (s : State) (g : Seg) (f : Engine → Engine) : (s.updEngine g f).mail = s.mail := updSeg_mail rfl

@[simp] theorem completeSlot_mail (n : SlotId) (st : Status) (s : State) : (completeSlot n st s).mail = s.mail :=
  mail_of_frame (completeSlot_boxes s n st) (completeSlot_segs s n st)

@[simp] theorem completeActive_mail (g : Seg) (st : Status) (s : State) : (completeActive g st s).mail = s.mail :=
  mail_congr (completeActive_box g st s) (completeActive_ctx g · st s)

@[simp] theorem idleEngine_mail (g : Seg) (s : State) : (idleEngine g s).mail = s.mail := updSeg_mail rfl

@[simp] theorem finishSlot_mail (g : Seg) (n : SlotId) (st : Status) (s : State) : (finishSlot g n st s).mail = s.mail := by simp [finishSlot]

@[simp] theorem releaseLines_mail (g : Seg) (s : State) : (releaseLines g s).mail = s.mail := updSeg_mail rfl

@[simp] theorem enterState_mail (g : Seg) (dest : SegState) (dm : DownMode) (s : State) : (enterState g dest dm s).mail = s.mail := by
  rw [enterState, raise_mail, updSeg_mail rfl]

@[simp] theorem stopQualifier_mail (g : Seg) (s : State) : (stopQualifier g s).mail = s.mail := updSeg_mail rfl

theorem mail_if {c : Prop} [Decidable c] {s t : State} (h : c → t.mail = s.mail) : (if c then t else s).mail = s.mail := by
  split
  · rename_i hc; exact h hc
  · rfl

@[simp] theorem settleIfPowered_mail (g : Seg) (s : State) : (settleIfPowered g s).mail = s.mail :=
  mail_if fun _ => by rw [raise_mail, updSeg_mail rfl]

@[simp] theorem startBusyTimer_mail (g : Seg) (s : State) : (startBusyTimer g s).mail = s.mail := updSeg_mail rfl

@[simp] theorem markAbsent_mail (n : SlotId) (f : Failure) (s : State) : (markAbsent n f s).mail = s.mail := updEntryOf_mail s n _

@[simp] theorem creditTarget_mail (n : SlotId) (s : State) : (creditTarget n s).mail = s.mail := updEntryOf_mail s n _

@[simp] theorem learnAddressAck_mail (n : SlotId) (s : State) : (learnAddressAck n s).mail = s.mail := updEntryOf_mail s n _

@[simp] theorem fixAttempt_mail (g : Seg) (n : SlotId) (s : State) : (fixAttempt g n s).mail = s.mail :=
  updSeg_mail (s := s.updSlot n _) rfl

@[simp] theorem quarantine_mail (n : SlotId) (s : State) : (quarantine n s).mail = s.mail := by
  unfold quarantine
  split <;> simp

@[simp] theorem recordFailure_mail (g : Seg) (n : SlotId) (f : Failure) (s : State) : (recordFailure g n f s).mail = s.mail := by
  unfold recordFailure countFailure
  split <;> simp

@[simp] theorem enterBackoff_mail (g : Seg) (n : SlotId) (s : State) : (enterBackoff g n s).mail = s.mail := by
  unfold enterBackoff
  split
  · exact finishSlot_mail g n _ s
  · exact updSeg_mail rfl

@[simp] theorem enterPollWait_mail (g : Seg) (n : SlotId) (s : State) : (enterPollWait g n s).mail = s.mail := by
  unfold enterPollWait
  split
  · exact finishSlot_mail g n _ s
  · exact updSeg_mail rfl

/-- The failure evaluation is about the attempt alone (R96). -/
@[simp] theorem evaluateFailure_mail (g : Seg) (f : Failure) (s : State) : (evaluateFailure g f s).mail = s.mail := by
  unfold evaluateFailure
  split
  · rfl
  · dsimp only
    split
    · simp
    · split
      · simp
      · split <;> simp

@[simp] theorem comparePoll_mail (g : Seg) (n : SlotId) (s : State) : (comparePoll g n s).mail = s.mail := by
  unfold comparePoll
  split
  · simp
  · dsimp only
    split <;> simp

@[simp] theorem succeed_mail (g : Seg) (n : SlotId) (s : State) : (succeed g n s).mail = s.mail := by
  unfold succeed
  dsimp only
  split <;> simp

@[simp] theorem stepEngine_mail (g : Seg) (f : Engine → Engine) (s : State) : (stepEngine g f s).mail = s.mail := updSeg_mail rfl

@[simp] theorem closeByMark_mail (g : Seg) (n : SlotId) (st : Status) (nack : Bool) (s : State) : (closeByMark g n st nack s).mail = s.mail := by
  simp [closeByMark]

@[simp] theorem markTaken_mail (g : Seg) (s : State) : (markTaken g s).mail = s.mail := by
  unfold markTaken
  split
  · rfl
  · split <;> simp

@[simp] theorem sampleLow_mail (g : Seg) (s : State) : (sampleLow g s).mail = s.mail := updSeg_mail rfl

/-! ### What begins and ends a context's part -/

theorem mailInOrder_if {c : Prop} [Decidable c] {s t : State} (hs : s.mail.InOrder) (h : c → t.mail.InOrder) :
    (if c then t else s).mail.InOrder := by
  split
  · rename_i hc; exact h hc
  · exact hs

/-- A departure cuts the context off (R129, R167). -/
theorem depart_mailInOrder {s : State} (h : s.mail.InOrder) (g : Seg) (dest : SegState) (dm : DownMode) (st : Status) :
    (depart g dest dm st s).mail.InOrder :=
  endContext_mailInOrder (by simpa using h) g

theorem goDark_mailInOrder {s : State} (h : s.mail.InOrder) (g : Seg) : (goDark g s).mail.InOrder :=
  depart_mailInOrder (by simpa using h) g _ _ _

theorem enterFaulted_mailInOrder {s : State} (h : s.mail.InOrder) (g : Seg) : (enterFaulted g s).mail.InOrder := depart_mailInOrder h g _ _ _

theorem enterRecovery_mailInOrder {s : State} (h : s.mail.InOrder) (g : Seg) : (enterRecovery g s).mail.InOrder := by
  refine endContext_mailInOrder ?_ g
  rw [enterState_mail, updSeg_mail rfl]
  exact h

theorem sendStart_mailInOrder {s : State} (h : s.mail.InOrder) (g : Seg) : (sendStart g s).mail.InOrder :=
  contextStart_mailInOrder (by rw [updSeg_mail rfl]; exact h) g

theorem meetBus_mailInOrder {s : State} (h : s.mail.InOrder) (g : Seg) (held : Nat) : (meetBus g held s).mail.InOrder := by
  unfold meetBus
  split
  · exact enterRecovery_mailInOrder h g
  · split
    · exact sendStart_mailInOrder h g
    · exact mailInOrder_if h fun _ => by rw [startBusyTimer_mail]; exact h

theorem beginAttempt_mailInOrder {s : State} (h : s.mail.InOrder) (g : Seg) (held : Nat) : (beginAttempt g held s).mail.InOrder := by
  unfold beginAttempt
  split
  · exact h
  · split
    · simpa using h
    · split
      · simpa using h
      · exact meetBus_mailInOrder (by simpa using h) g held

/-- Before a second address byte the engine makes a repeated start, which its context sees (R72, R151). -/
theorem goTo_mailInOrder {s : State} (h : s.mail.InOrder) (g : Seg) (pos : BytePos) : (goTo g pos s).mail.InOrder := by
  have hstep : (stepEngine g (fun e => { e with pos := pos }) s).mail.InOrder := by simpa using h
  unfold goTo
  dsimp only
  split
  · exact contextStart_mailInOrder hstep g
  · exact hstep

theorem afterAck_mailInOrder {s : State} (h : s.mail.InOrder) (g : Seg) (n : SlotId) (pos : BytePos) : (afterAck g n pos s).mail.InOrder := by
  unfold afterAck
  split
  · exact goTo_mailInOrder h g pos
  · split
    · simpa using h
    · exact goTo_mailInOrder h g pos

theorem stopRises_mailInOrder {s : State} (h : s.mail.InOrder) (g : Seg) : (stopRises g s).mail.InOrder :=
  contextStop_mailInOrder (by rw [updSeg_mail rfl]; exact h) g

theorem seeStart_mailInOrder {s : State} (h : s.mail.InOrder) (g : Seg) : (seeStart g s).mail.InOrder := by
  unfold seeStart
  refine mailInOrder_if h fun _ => ?_
  have hseen : (s.updSeg g (fun x => { x with known := true, sclHigh := true, sdaHigh := false, engine := becomeBusy x })).mail.InOrder := by
    rw [updSeg_mail rfl]; exact h
  exact mailInOrder_if hseen fun _ => contextStart_mailInOrder hseen g

theorem seeStop_mailInOrder {s : State} (h : s.mail.InOrder) (g : Seg) : (seeStop g s).mail.InOrder := by
  unfold seeStop
  refine mailInOrder_if h fun _ => ?_
  have hseen : (s.updSeg g (fun x => { x with
      known := false, sclHigh := true, sdaHigh := true, engine := { x.engine with busyTimer := none } })).mail.InOrder := by
    rw [updSeg_mail rfl]; exact h
  exact mailInOrder_if hseen fun _ => contextStop_mailInOrder hseen g

/-- Alongside the engine's own address byte the context makes no use of a mailbox (R86, R151). -/
theorem use_of_aside {c : RxContext} (h : c.phase = .listen ∨ c.phase = .address ∨ c.phase = .unaddressed) : c.use = none := by
  obtain h | h | h := h <;> simp [RxContext.use, h]

end Sys2Proof.Machine
end

section
/-! SUPPORT. The rows of the wire, of the timers and of the power keep the mailboxes (chapters 4 to 8). -/

namespace Sys2Proof.Machine

open Sys2Proof.Safety Sys2Proof.Claims

/-! ### How a row is taken -/

/-- The row of an outcome keeps the mailboxes. -/
def NextKeepsMail (s : State) (o : Host.Outcome State Fault Refusal) : Prop :=
  ∃ t : State, o = .next t ∧ (PowerInv s → MailboxInv s → MailboxInv t)

/-- A row of the wire is taken with no reset under way, while the segments and the mail are in order (R148, R149). -/
theorem onWire_keepsMail {f : State → State} {s : State} (h : s.InOrder → s.mail.InOrder → (f s).mail.InOrder) :
    NextKeepsMail s (.next (onWire f s)) := by
  refine ⟨_, rfl, fun hp hs => ?_⟩
  unfold onWire
  split
  · rename_i hl
    exact mailboxInv_of_mailInOrder (h (inOrder_of_powerInv hp hl) (mailInOrder_of_mailboxInv hs ((live_iff s).mp hl).2))
  · exact hs

/-- An access of the window is carried out with no reset under way (R188, R189). -/
theorem onWindow_keepsMail {f : State → State} {s : State} (h : s.mail.InOrder → (f s).mail.InOrder) :
    NextKeepsMail s (.next (onWindow f s)) := onWire_keepsMail fun _ => h

theorem onWindow_mail {f : State → State} {s : State} (h : (f s).mail = s.mail) : NextKeepsMail s (.next (onWindow f s)) :=
  onWindow_keepsMail fun hs => h ▸ hs

theorem onWire_mail {f : State → State} {s : State} (h : (f s).mail = s.mail) : NextKeepsMail s (.next (onWire f s)) := onWindow_mail h

/-! ### The dispatch, the bus and the waits -/

theorem promote_mailInOrder {s : State} (h : s.mail.InOrder) (g : Seg) (n : SlotId) (held : Nat) : (promote g n held s).mail.InOrder :=
  beginAttempt_mailInOrder (by rw [updSeg_mail rfl]; exact h) g held

theorem evaluateHead_mailInOrder {s : State} (h : s.mail.InOrder) (g : Seg) (held : Nat) (n : SlotId) :
    (evaluateHead g held n s).mail.InOrder := by
  have hhead : ∀ st, (completeHead g n st s).mail.InOrder := fun st => by
    rw [completeHead, completeSlot_mail, updSeg_mail rfl]; exact h
  unfold evaluateHead
  split
  · exact hhead _
  · split
    · exact hhead _
    · split
      · exact hhead _
      · exact mailInOrder_if h fun _ => promote_mailInOrder h g n held

theorem execHeadEvaluation_keepsMail (g : Seg) (held : Nat) (s : State) : NextKeepsMail s (execHeadEvaluation g held s) := by
  refine onWire_keepsMail fun _ h => ?_
  split
  · exact evaluateHead_mailInOrder h g held _
  · exact h

theorem execEngineStart_keepsMail (g : Seg) (s : State) : NextKeepsMail s (execEngineStart g s) :=
  onWire_keepsMail fun _ h => mailInOrder_if h fun _ => sendStart_mailInOrder h g

theorem execBusyTimerExpiry_keepsMail (g : Seg) (s : State) : NextKeepsMail s (execBusyTimerExpiry g s) :=
  onWire_mail (mail_if fun _ => evaluateFailure_mail g _ s)

theorem execStuckDetected_keepsMail (g : Seg) (s : State) : NextKeepsMail s (execStuckDetected g s) :=
  onWire_keepsMail fun _ h => mailInOrder_if h fun _ => enterRecovery_mailInOrder h g

theorem execBackoffTimerExpiry_keepsMail (g : Seg) (held : Nat) (s : State) : NextKeepsMail s (execBackoffTimerExpiry g held s) :=
  onWire_keepsMail fun _ h => mailInOrder_if h fun _ => beginAttempt_mailInOrder h g held

theorem execPollTimerExpiry_keepsMail (g : Seg) (held : Nat) (s : State) : NextKeepsMail s (execPollTimerExpiry g held s) :=
  onWire_keepsMail fun _ h => mailInOrder_if h fun _ => beginAttempt_mailInOrder h g held

/-! ### The bytes, the stops and the arbitration of the engine -/

/-- Alongside the engine's own address byte the context makes no use of a mailbox, which it leaves (R86, R151). -/
theorem State.InTransfer.contextUnaddressed_mailInOrder {s : State} {g : Seg} (ht : s.InTransfer g) (h : s.mail.InOrder) :
    (Machine.contextUnaddressed g s).mail.InOrder := by
  have huse : (s.ctx g).use = none := use_of_aside ((ht.inOrder g).segment.alongside (.inl ht.transfer))
  exact updCtx_leaves h (by simp [huse]) (by simp [huse]) rfl

/-- An address byte with its acknowledge (R70, R79, R93). -/
theorem State.InTransfer.addressByte_mailInOrder {s : State} {g : Seg} (ht : s.InTransfer g) (h : s.mail.InOrder) (n : SlotId)
    (pos : BytePos) (ack : Bool) :
    (if ack then afterAck g n pos (learnAddressAck n (Machine.contextUnaddressed g s))
      else meetFailure g .nackAddress (Machine.contextUnaddressed g s)).mail.InOrder := by
  have hunaddressed := ht.contextUnaddressed_mailInOrder h
  split
  · exact afterAck_mailInOrder (by rw [learnAddressAck_mail]; exact hunaddressed) g n pos
  · rw [meetFailure, stepEngine_mail]; exact hunaddressed

theorem execEngineAddressByte_keepsMail (g : Seg) (ack : Bool) (s : State) : NextKeepsMail s (execEngineAddressByte g ack s) := by
  refine onWire_keepsMail fun hs h => ?_
  split
  · rename_i hsend; exact (hs.inTransfer hsend).1.addressByte_mailInOrder h _ _ ack
  · rename_i hsend; exact (hs.inTransfer hsend).1.addressByte_mailInOrder h _ _ ack
  · exact h

theorem execEngineWriteByte_keepsMail (g : Seg) (ack : Bool) (s : State) : NextKeepsMail s (execEngineWriteByte g ack s) := by
  refine onWire_keepsMail fun _ h => ?_
  split
  · split
    · exact afterAck_mailInOrder (by rw [updSlot_mail]; exact h) g _ _
    · rw [meetFailure, stepEngine_mail]; exact h
  · exact h

theorem execEngineReadByte_keepsMail (g : Seg) (b : Byte) (s : State) : NextKeepsMail s (execEngineReadByte g b s) := by
  refine onWire_keepsMail fun _ h => ?_
  have happended : ∀ n, (appendRead n b s).mail = s.mail := fun n => updSlot_mail s n _
  split
  · split
    · rw [endRead, stepEngine_mail, happended]; exact h
    · split
      · rw [closeByMark_mail, happended]; exact h
      · exact goTo_mailInOrder (by rw [happended]; exact h) g _
  · exact h

theorem execClosingStop_keepsMail (g : Seg) (s : State) : NextKeepsMail s (execClosingStop g s) := by
  refine onWire_keepsMail fun _ h => ?_
  have hrises := stopRises_mailInOrder h g
  split
  · split
    · rw [evaluateFailure_mail]; exact hrises
    · rw [succeed_mail]; exact hrises
  · exact h

theorem endOfflineClose_mail (g : Seg) (rose : Bool) (s : State) : (endOfflineClose g rose s).mail = s.mail := by
  rw [endOfflineClose, idleEngine_mail, releaseLines_mail, updSeg_mail rfl]

theorem execStopFailed_keepsMail (g : Seg) (s : State) : NextKeepsMail s (execStopFailed g s) := by
  refine onWire_keepsMail fun _ h => ?_
  split
  · exact enterRecovery_mailInOrder h g
  · exact mailInOrder_if h fun _ => by rw [endOfflineClose_mail]; exact h

theorem execMarkCloseStop_keepsMail (g : Seg) (s : State) : NextKeepsMail s (execMarkCloseStop g s) :=
  onWire_keepsMail fun _ h => mailInOrder_if h fun _ => by rw [idleEngine_mail]; exact stopRises_mailInOrder h g

theorem execOfflineCloseStop_keepsMail (g : Seg) (s : State) : NextKeepsMail s (execOfflineCloseStop g s) :=
  onWire_mail (mail_if fun _ => endOfflineClose_mail g true s)

theorem execArbitrationLost_keepsMail (g : Seg) (s : State) : NextKeepsMail s (execArbitrationLost g s) := by
  refine onWire_mail ?_
  split
  · simp
  · exact mail_if fun _ => by simp

/-! ### Held clocks and recovery -/

theorem execStretchTimerExpiry_keepsMail (g : Seg) (s : State) : NextKeepsMail s (execStretchTimerExpiry g s) :=
  onWire_mail (mail_if fun _ => updSeg_mail rfl)

theorem execClockReleased_keepsMail (g : Seg) (s : State) : NextKeepsMail s (execClockReleased g s) :=
  onWire_mail (mail_if fun _ => updSeg_mail rfl)

theorem execReleaseTimerExpiry_keepsMail (g : Seg) (s : State) : NextKeepsMail s (execReleaseTimerExpiry g s) :=
  onWire_keepsMail fun _ h => mailInOrder_if h fun _ => enterFaulted_mailInOrder (by rw [updSeg_mail rfl]; exact h) g

theorem recovered_mail (g : Seg) (s : State) : (recovered g s).mail = s.mail := by
  have hup : (enterState g .up .none (s.updSeg g (fun x => { x with known := false, sclHigh := true, sdaHigh := true }))).mail = s.mail := by
    rw [enterState_mail, updSeg_mail rfl]
  unfold recovered
  dsimp only
  split
  · rw [evaluateFailure_mail, hup]
  · rw [idleEngine_mail, hup]

/-- A recovery goes on, or fails after its ninth pulse (R83, R84). -/
theorem recoveryStep_mailInOrder {s : State} (h : s.mail.InOrder) (g : Seg) {f : Segment → Segment} (hf : (f (s.seg g)).ctx = s.ctx g)
    {c : Prop} [Decidable c] : (if c then enterFaulted g (s.updSeg g f) else s.updSeg g f).mail.InOrder := by
  have hstep : (s.updSeg g f).mail.InOrder := by rw [updSeg_mail hf]; exact h
  exact mailInOrder_if hstep fun _ => enterFaulted_mailInOrder hstep g

theorem execRecoveryPulse_keepsMail (g : Seg) (dataHigh : Bool) (s : State) : NextKeepsMail s (execRecoveryPulse g dataHigh s) :=
  onWire_keepsMail fun _ h => mailInOrder_if h fun _ => recoveryStep_mailInOrder h g rfl

theorem execRecoveryStop_keepsMail (g : Seg) (rose : Bool) (s : State) : NextKeepsMail s (execRecoveryStop g rose s) :=
  onWire_keepsMail fun _ h => mailInOrder_if h fun _ => by
    split
    · rw [recovered_mail]; exact h
    · exact recoveryStep_mailInOrder h g rfl

/-! ### Remote transfers and the lines -/

theorem phase_of_served {s : State} {g : Seg} {p : Phase} (h : s.served g p = true) : (s.ctx g).phase = p := by
  simp only [State.served, Bool.and_eq_true, decide_eq_true_eq] at h
  exact h.2

theorem execRemoteAddressByte_keepsMail (g : Seg) (b : Byte) (s : State) : NextKeepsMail s (execRemoteAddressByte g b s) :=
  onWire_keepsMail fun _ h => mailInOrder_if h fun hc => evaluateAddress_mailInOrder h (use_of_aside (.inr (.inl (phase_of_served hc)))) b

theorem execRemoteWriteByte_keepsMail (g : Seg) (b : Byte) (s : State) : NextKeepsMail s (execRemoteWriteByte g b s) :=
  onWire_keepsMail fun _ h => mailInOrder_if h fun hc => receiveByte_mailInOrder h (phase_of_served hc) b

theorem execRemoteReadByte_keepsMail (g : Seg) (ack : Bool) (s : State) : NextKeepsMail s (execRemoteReadByte g ack s) :=
  onWire_keepsMail fun _ h => mailInOrder_if h fun _ => sendByte_mailInOrder h g ack

theorem execHoldTimerExpiry_keepsMail (g : Seg) (s : State) : NextKeepsMail s (execHoldTimerExpiry g s) :=
  onWire_keepsMail fun _ h => mailInOrder_if h fun hc => serveFill_mailInOrder h hc.1

theorem lineChange_ctx (line : Line) (high : Bool) (x : Segment) : (lineChange line high x).ctx = x.ctx := by
  unfold lineChange
  split
  · rfl
  · split <;> rfl

/-- A start or a stop is seen with no reset under way; any other change of a line is recorded, under a reset too. -/
theorem execLineChangeOutsideTransfer_keepsMail (g : Seg) (line : Line) (high : Bool) (s : State) :
    NextKeepsMail s (execLineChangeOutsideTransfer g line high s) := by
  refine ⟨_, rfl, fun _ hs => ?_⟩
  split
  · rename_i hc
    have h := mailInOrder_of_mailboxInv hs ((live_iff s).mp hc.1).2
    refine mailboxInv_of_mailInOrder ?_
    split
    · exact seeStop_mailInOrder h g
    · exact seeStart_mailInOrder h g
  · exact mailboxInv_congr (updSeg_mail (lineChange_ctx line high (s.seg g))) rfl hs

/-! ### The power -/

@[simp] theorem recordLevel_mail (g : Seg) (level : Bool) (s : State) : (recordLevel g level s).mail = s.mail := updSeg_mail rfl

theorem assertPower_mail (g : Seg) (s : State) : (assertPower g s).mail = s.mail := by
  have hglitch : (if (s.seg g).glitchTimer.isSome then ignoreGlitch g s else s).mail = s.mail := mail_if fun _ => updSeg_mail rfl
  unfold assertPower
  split
  · exact settleIfPowered_mail g s
  · exact hglitch
  · exact hglitch
  · exact hglitch
  · rfl
  · rfl

theorem deassertPower_mailInOrder {s : State} (h : s.mail.InOrder) (g : Seg) : (deassertPower g s).mail.InOrder := by
  have hwatched : (if (s.seg g).config.glitchWindow = 0 then goDark g s else startGlitchWatch g s).mail.InOrder := by
    split
    · exact goDark_mailInOrder h g
    · rw [startGlitchWatch, updSeg_mail rfl]; exact h
  unfold deassertPower
  split
  · rw [enterState_mail, stopQualifier_mail]; exact h
  · exact hwatched
  · exact hwatched
  · exact hwatched
  · exact h
  · exact h

/-- An edge of SPGn is recorded, and acts while no reset is under way (R130). -/
theorem edge_keepsMail {s : State} (hs : MailboxInv s) (g : Seg) (level : Bool) {f : State → State}
    (hf : ∀ t : State, t.mail.InOrder → (f t).mail.InOrder) : MailboxInv (onWire f (recordLevel g level s)) := by
  have hrecord : MailboxInv (recordLevel g level s) := mailboxInv_congr (recordLevel_mail g level s) rfl hs
  unfold onWire
  split
  · rename_i hl
    exact mailboxInv_of_mailInOrder (hf _ (mailInOrder_of_mailboxInv hrecord ((live_iff _).mp hl).2))
  · exact hrecord

theorem execSpgAssert_keepsMail (g : Seg) (s : State) : NextKeepsMail s (execSpgAssert g s) := by
  refine ⟨_, rfl, fun _ hs => ?_⟩
  split
  · exact hs
  · exact edge_keepsMail hs g true fun t h => by rw [assertPower_mail]; exact h

theorem execSpgDeassert_keepsMail (g : Seg) (s : State) : NextKeepsMail s (execSpgDeassert g s) := by
  refine ⟨_, rfl, fun _ hs => ?_⟩
  split
  · exact edge_keepsMail hs g false fun t h => deassertPower_mailInOrder h g
  · exact hs

/-- The context of a segment that reaches UP was in LISTEN, and stays there (R132, R151). -/
theorem execSettleTimerExpiry_keepsMail (g : Seg) (s : State) : NextKeepsMail s (execSettleTimerExpiry g s) :=
  onWire_keepsMail fun hs h => mailInOrder_if h fun ⟨_, hstate⟩ => by
    have hlisten : (s.ctx g).phase = .listen := by
      by_contra hl
      exact nomatch hstate.symm.trans ((hs g).segment.listens hl)
    have huse := use_of_aside (.inl hlisten)
    rw [reachUp, enterState_mail, updSeg_mail_put s g _ (s.ctx g).mailbox]
    exact h.leave (fun hw => nomatch huse.symm.trans hw) (fun hr => nomatch huse.symm.trans hr) rfl

theorem execGlitchTimerExpiry_keepsMail (g : Seg) (s : State) : NextKeepsMail s (execGlitchTimerExpiry g s) :=
  onWire_keepsMail fun _ h => mailInOrder_if h fun _ => goDark_mailInOrder h g

end Sys2Proof.Machine
end

section
/-! SUPPORT. The commands, the resets and the table port keep the mailboxes, and with them every row. -/

namespace Sys2Proof.Machine

open Sys2Proof.Safety Sys2Proof.Claims

/-! ### How a command is carried out -/

@[simp] theorem storeCode_mail (code : BitVec 8) (s : State) : (storeCode code s).mail = s.mail := rfl

theorem record_mail (r : Reply) : r.record.mail = r.state.mail := by
  unfold Reply.record
  split <;> rfl

theorem runCommand_keepsMail {code : BitVec 8} {f : State → Reply} {s : State}
    (h : ∀ t : State, t.mail.InOrder → (f t).state.mail.InOrder) : NextKeepsMail s (.next (runCommand code f s)) :=
  onWindow_keepsMail fun hs => by rw [record_mail]; exact h (storeCode code s) hs

theorem runNumber_keepsMail {code : BitVec 8} {k : Nat} {f : Fin k → State → Reply} {s : State}
    (h : ∀ (n : Fin k) (t : State), t.mail.InOrder → (f n t).state.mail.InOrder) :
    NextKeepsMail s (.next (runCommand code (withNumber k f) s)) :=
  runCommand_keepsMail fun t ht => by
    unfold withNumber
    split
    · exact h _ t ht
    · exact ht

/-- A command with a number that leaves the mail as it is. -/
theorem runNumber_mail {code : BitVec 8} {k : Nat} {f : Fin k → State → Reply} {s : State} (h : ∀ n t, (f n t).state.mail = t.mail) :
    NextKeepsMail s (.next (runCommand code (withNumber k f) s)) :=
  runNumber_keepsMail fun n t ht => by rw [h]; exact ht

/-! ### Commands on slots and the queue -/

theorem allocate_mail (s : State) : (allocate s).state.mail = s.mail := by
  unfold allocate
  split <;> rfl

theorem discard_mail (n : SlotId) (s : State) : (discard n s).state.mail = s.mail := by
  unfold discard
  split <;> rfl

theorem acceptPost_mail (n : SlotId) (g : Seg) (s : State) : (acceptPost n g s).mail = s.mail := by
  have hlatch : (latchPost n g s).mail = s.mail := by simp [latchPost]
  unfold acceptPost
  dsimp only
  split
  · rw [completeSlot_mail, hlatch]
  · rw [updSeg_mail rfl, updSlot_mail, hlatch]

theorem post_mail (n : SlotId) (s : State) : (post n s).state.mail = s.mail := by
  unfold post
  split
  · split
    · rfl
    · split
      · exact acceptPost_mail n _ s
      · rfl
  · rfl

theorem abort_mail (n : SlotId) (s : State) : (abort n s).state.mail = s.mail := by
  have htaken : (if (s.slot n).mark = .none then
      accept (if (s.slot n).state = .active then markTaken (s.slot n).segment (setMark .aborted n s) else setMark .aborted n s) n.val
    else accept s n.val).state.mail = s.mail := by
    split
    · exact mail_if (s := setMark .aborted n s) fun _ => markTaken_mail _ _
    · rfl
  unfold abort
  split
  · exact htaken
  · exact htaken
  all_goals rfl

theorem retire_mail (s : State) : (retire s).state.mail = s.mail := by
  unfold retire
  split <;> rfl

theorem flushSegment_mail (g : Seg) (s : State) : (flushSegment g s).state.mail = s.mail := by
  rw [flushSegment_eq]
  refine (markTaken_mail g _).trans ?_
  rw [flushMarks_frame]
  rfl

/-! ### Commands on segments and targets -/

theorem closeForOffline_mail (g : Seg) (e : Engine) (s : State) : (closeForOffline g e s).mail = s.mail := by
  unfold closeForOffline
  split
  · exact updSeg_mail rfl
  · simp

/-- OFFLINE cuts off the context of a segment that leaves service (R141, R167). -/
theorem offline_mailInOrder (g : Seg) (s : State) (h : s.mail.InOrder) : (offline g s).state.mail.InOrder := by
  have hworking : (endContext g (enterState g .offline s.argMode
      (closeForOffline g (s.engine g) (completeActive g .segmentDown (stopQualifier g s))))).mail.InOrder :=
    endContext_mailInOrder (by rw [enterState_mail, closeForOffline_mail, completeActive_mail, stopQualifier_mail]; exact h) g
  have hdown : (enterState g .offline s.argMode (stopQualifier g s)).mail.InOrder := by rw [enterState_mail, stopQualifier_mail]; exact h
  unfold offline
  dsimp only [accept]
  split
  · rw [updSeg_mail rfl]; exact h
  · exact hworking
  · exact hworking
  · exact hdown
  · exact hdown
  · exact hdown

theorem online_mail (g : Seg) (s : State) : (online g s).state.mail = s.mail := by
  unfold online
  split
  · dsimp only [accept]; simp
  · rfl

theorem resetList_mail (g : Seg) (s : State) : (resetList g s).mail = s.mail := by
  have hlist : ∀ (ns : List SlotId) (t : State), (ns.foldl (fun t n => completeSlot n .reset t) t).mail = t.mail := fun ns => by
    induction ns with
    | nil => exact fun _ => rfl
    | cons n ns ih => exact fun t => (ih _).trans (completeSlot_mail n .reset t)
  rw [resetList, updSeg_mail rfl, hlist]

/-- SEGMENT_RESET cuts the context off (R144, R167). -/
theorem segmentReset_mailInOrder (g : Seg) (s : State) (h : s.mail.InOrder) : (segmentReset g s).state.mail.InOrder := by
  have hclear : (clearSegment g s).mail.InOrder := endContext_mailInOrder (by
    rw [updSeg_mail rfl, stopQualifier_mail, resetList_mail, idleEngine_mail, completeActive_mail, releaseLines_mail]; exact h) g
  unfold segmentReset
  dsimp only [accept]
  split
  · exact hclear
  · rw [settleIfPowered_mail, enterState_mail]; exact hclear

theorem readmit_mail (k : TargetId) (s : State) : (readmit k s).state.mail = s.mail := by
  unfold readmit
  split <;> rfl

/-! ### The resets -/

/-- With every context in LISTEN the mailboxes are in order where a DEVICE_RESET runs, or where they are as a reset leaves them. -/
theorem mailboxInv_of_listening {s : State} (hctx : ∀ g, s.ctx g = {}) (ranges : ∀ m, BoxInv (s.box m))
    (hbox : s.win.resetBusy = false → ∀ m, s.box m = {}) : MailboxInv s := by
  have hlisten : ∀ g, (s.ctx g).phase = .listen := fun g => congrArg RxContext.phase (hctx g)
  exact {
    ranges := ranges
    writing := fun g _ hw => nomatch (hlisten g).symm.trans hw.1
    reading := fun g _ hr => nomatch (hlisten g).symm.trans hr.1
    holding := fun g _ hh => nomatch (hlisten g).symm.trans hh.1
    oneWriter := fun g _ _ hw => nomatch (hlisten g).symm.trans hw.1
    oneReader := fun g _ _ hr => nomatch (hlisten g).symm.trans hr.1
    oneHolder := fun g _ _ hh => nomatch (hlisten g).symm.trans hh.1
    filled := fun hb m hf => nomatch (congrArg Mailbox.inState (hbox hb m)).symm.trans hf
    sent := fun hb m hs => nomatch (congrArg Mailbox.outState (hbox hb m)).symm.trans hs
    holdTimer := fun g => by simp [hctx] }

/-- DEVICE_RESET puts every context in LISTEN and leaves the mailboxes to its end (R149, R187). -/
theorem execDeviceReset_keepsMail (s : State) : NextKeepsMail s (execDeviceReset s) := by
  refine ⟨_, rfl, fun _ hs => ?_⟩
  unfold onWindow
  split
  · refine mailboxInv_of_listening (fun g => ?_) hs.ranges fun hb => nomatch hb
    rw [State.ctx, show (beginDeviceReset (storeCode Command.deviceReset.code s)).seg g = (s.seg g).beginReset from mapAll_getElem _ _ g]
    unfold Segment.beginReset
    dsimp only
    split <;> rfl
  · exact hs

theorem foldl_settleDark_mail (gs : List Seg) (s : State) : (gs.foldl settleDark s).mail = s.mail := by
  induction gs generalizing s with
  | nil => rfl
  | cons g gs ih => exact (ih _).trans (mail_if fun _ => settleIfPowered_mail g s)

theorem foldl_settleDark_mailboxInv {s : State} (hs : MailboxInv s) : MailboxInv (allSegs.foldl settleDark s) :=
  mailboxInv_congr (foldl_settleDark_mail allSegs s) (by rw [foldl_settleDark_frame]) hs

/-- Every mailbox and every context takes the values of a reset. -/
theorem mailboxInv_of_reset {s : State} (hctx : ∀ g, s.ctx g = {}) (hbox : s.boxes = Vector.replicate 4 {}) : MailboxInv s := by
  have hempty : ∀ m, s.box m = {} := fun m => by rw [State.box, hbox]; exact replicate_getElem _ m
  exact mailboxInv_of_listening hctx (fun m => hempty m ▸ empty_boxInv) fun _ => hempty

theorem rstValues_mailboxInv (held : Bool) (s : State) : MailboxInv (rstValues held s) :=
  mailboxInv_of_reset (fun g => by rw [State.ctx, rstValues_seg]; rfl) rfl

theorem execDeviceResetEnd_keepsMail (s : State) : NextKeepsMail s (execDeviceResetEnd s) := by
  refine ⟨_, rfl, fun _ hs => ?_⟩
  split
  · rw [endDeviceReset_eq]
    refine foldl_settleDark_mailboxInv (mailboxInv_of_reset (fun g => ?_) rfl)
    rw [State.ctx, deviceResetValues_seg]
    unfold Segment.endReset
    dsimp only
    split <;> rfl
  · exact hs

theorem execRstAssert_keepsMail (s : State) : NextKeepsMail s (execRstAssert s) := ⟨_, rfl, fun _ _ => rstValues_mailboxInv true s⟩

theorem execRstEnd_keepsMail (s : State) : NextKeepsMail s (execRstEnd s) := by
  refine ⟨_, rfl, fun _ hs => ?_⟩
  split
  · exact foldl_settleDark_mailboxInv (rstValues_mailboxInv false s)
  · exact hs

/-! ### The window and the table port -/

theorem startCoalescing_mail (s : State) : s.startCoalescing.mail = s.mail := by rw [startCoalescing_eq]; rfl

theorem clearFlags_mail (s : State) (ones : Word) : (s.clearFlags ones).mail = s.mail := by
  unfold State.clearFlags
  dsimp only
  split
  · split
    · rfl
    · split
      · rfl
      · exact startCoalescing_mail _
  · rfl

theorem configureQueue_mail (s : State) (threshold : BitVec 6) (delay : Byte) : (s.configureQueue threshold delay).mail = s.mail := by
  have hsignal : ∀ {c : Prop} [Decidable c] (t : State), (if c then t.signalQueue else t).mail = t.mail := fun t => mail_if fun _ => rfl
  unfold State.configureQueue
  dsimp only
  split
  · exact hsignal (s.updCq _)
  · exact (mail_if fun _ => startCoalescing_mail _).trans (hsignal (s.updCq _))

theorem writePlain_mail (r : PlainRegister) (v : Word) (s : State) : (writePlain r v s).mail = s.mail := by cases r <;> rfl

theorem execTbloRead_keepsMail (s : State) : NextKeepsMail s (execTbloRead s) := by
  refine ⟨_, rfl, fun _ => ?_⟩
  split <;> exact mailboxInv_congr rfl rfl

theorem execUndefinedWordAccess_keepsMail (word : Fin 8) (a : Access) (s : State) :
    NextKeepsMail s (execUndefinedWordAccess word a s) := by
  refine ⟨_, rfl, fun _ hs => ?_⟩
  have herror : MailboxInv (onWindow (fun s => s.raise .windowError) s) := by
    unfold onWindow
    split
    · exact mailboxInv_congr (s := s) (t := s.raise .windowError) rfl rfl hs
    · exact hs
  cases a with
  | read => exact mailboxInv_congr (s := onWindow (fun s => s.raise .windowError) s) rfl rfl herror
  | write v => exact herror

theorem execTimeBaseCount_keepsMail (s : State) : NextKeepsMail s (execTimeBaseCount s) := by
  refine ⟨_, rfl, fun _ => ?_⟩
  split <;> exact mailboxInv_congr rfl rfl

theorem execTdataRead_keepsMail (s : State) : NextKeepsMail s (execTdataRead s) := by
  refine ⟨_, rfl, fun _ => ?_⟩
  split
  · unfold tdataRead
    split <;> exact mailboxInv_congr rfl rfl
  · exact mailboxInv_congr rfl rfl

theorem storeIdentity_mail (k : TargetId) (d : Identity) (s : State) : (storeIdentity k d s).mail = s.mail := by
  unfold storeIdentity
  split <;> rfl

/-- A write of TDATA changes no mailbox but for its staging bytes (R154). -/
theorem tdataWrite_mailInOrder (v : Word) {s : State} (h : s.mail.InOrder) : (tdataWrite v s).mail.InOrder := by
  unfold tdataWrite
  split
  · unfold writeIdentity
    split
    · exact h
    · change (storeIdentity _ _ s).mail.InOrder
      rw [storeIdentity_mail]; exact h
  · exact h
  · unfold writeSlotField
    split <;> exact h
  · rename_i g i _
    have hconfig : (s.updSeg g fun x => { x with config := x.config.store i v }).mail = s.mail := updSeg_mail rfl
    change (s.updSeg g fun x => { x with config := x.config.store i v }).mail.InOrder
    rw [hconfig]; exact h
  · exact h
  · rename_i m i _
    refine updBox_mailInOrder (f := fun b => { b with staging := setBufferWord b.staging (i - 1) v }) h { h.ranges m with } (fun u hs => .inl ?_)
      (fun u _ hs => ?_) fun _ => rfl
    · cases u <;> exact hs
    · cases u <;> exact hs
  all_goals exact h

theorem tdataRow_keepsMail {i : Instr} {v : Word} (s : State)
    (h : i ∈ [.targetIdentityWrite v, .targetPolicyWrite v, .slotFieldWrite v, .segmentConfigWrite v, .responderEntryWrite v,
      .stagingBytesWrite v, .readOnlyTableWrite v, .tdataWriteOutOfRange v]) : NextKeepsMail s (exec i s) := by
  rw [exec_tdataWrite s h]
  exact onWindow_keepsMail (tdataWrite_mailInOrder v)

/-! ### Every row -/

/-- A write of CMD with the code of a command. -/
theorem writeCommand_keepsMail (c : Command) (s : State) : NextKeepsMail s (writeCommand c s) := by
  cases c with
  | allocate => exact runCommand_keepsMail fun t ht => by rw [allocate_mail]; exact ht
  | discard => exact runNumber_mail discard_mail
  | post => exact runNumber_mail post_mail
  | abort => exact runNumber_mail abort_mail
  | retire => exact runCommand_keepsMail fun t ht => by rw [retire_mail]; exact ht
  | flushSegment => exact runNumber_mail flushSegment_mail
  | offline => exact runNumber_keepsMail offline_mailInOrder
  | online => exact runNumber_mail online_mail
  | segmentReset => exact runNumber_keepsMail segmentReset_mailInOrder
  | readmit => exact runNumber_mail readmit_mail
  | releaseInbound => exact runNumber_keepsMail fun m _ ht => releaseInbound_mailInOrder ht m
  | commitOutbound => exact runNumber_keepsMail fun m _ ht => commitOutbound_mailInOrder ht m
  | cancelOutbound => exact runNumber_keepsMail fun m _ ht => cancelOutbound_mailInOrder ht m
  | deviceReset => exact execDeviceReset_keepsMail s

theorem execUnknownCommand_keepsMail (code : BitVec 8) (s : State) : NextKeepsMail s (execUnknownCommand code s) := by
  unfold execUnknownCommand
  split
  · exact runCommand_keepsMail fun _ ht => ht
  · exact writeCommand_keepsMail _ s

/-- Every row keeps the mailboxes. -/
theorem exec_keepsMail (i : Instr) (s : State) : NextKeepsMail s (exec i s) := by
  cases i with
  | allocate => exact writeCommand_keepsMail .allocate s
  | discard => exact writeCommand_keepsMail .discard s
  | post => exact writeCommand_keepsMail .post s
  | abort => exact writeCommand_keepsMail .abort s
  | retire => exact writeCommand_keepsMail .retire s
  | flushSegment => exact writeCommand_keepsMail .flushSegment s
  | offline => exact writeCommand_keepsMail .offline s
  | online => exact writeCommand_keepsMail .online s
  | segmentReset => exact writeCommand_keepsMail .segmentReset s
  | readmit => exact writeCommand_keepsMail .readmit s
  | releaseInbound => exact writeCommand_keepsMail .releaseInbound s
  | commitOutbound => exact writeCommand_keepsMail .commitOutbound s
  | cancelOutbound => exact writeCommand_keepsMail .cancelOutbound s
  | deviceReset => exact execDeviceReset_keepsMail s
  | deviceResetEnd => exact execDeviceResetEnd_keepsMail s
  | unknownCommand code => exact execUnknownCommand_keepsMail code s
  | tdataRead => exact execTdataRead_keepsMail s
  | targetIdentityWrite v | targetPolicyWrite v | slotFieldWrite v | segmentConfigWrite v | responderEntryWrite v | stagingBytesWrite v
  | readOnlyTableWrite v | tdataWriteOutOfRange v => exact tdataRow_keepsMail (v := v) s (by simp)
  | evtWrite v => exact onWindow_mail (clearFlags_mail s v)
  | evtenWrite v => exact onWindow_mail (f := writeEvten v) rfl
  | ctlWrite v => exact onWindow_mail (f := writeCtl v) rfl
  | cqcfgWrite v => exact onWindow_mail (f := writeCqcfg v) (configureQueue_mail s _ _)
  | tbloRead => exact execTbloRead_keepsMail s
  | undefinedWordAccess w a => exact execUndefinedWordAccess_keepsMail w a s
  | registerWrite r v => exact onWindow_mail (writePlain_mail r v s)
  | rstAssert => exact execRstAssert_keepsMail s
  | rstEnd => exact execRstEnd_keepsMail s
  | spgAssert g => exact execSpgAssert_keepsMail g s
  | spgDeassert g => exact execSpgDeassert_keepsMail g s
  | settleTimerExpiry g => exact execSettleTimerExpiry_keepsMail g s
  | glitchTimerExpiry g => exact execGlitchTimerExpiry_keepsMail g s
  | headEvaluation g held => exact execHeadEvaluation_keepsMail g held s
  | engineStart g => exact execEngineStart_keepsMail g s
  | busyTimerExpiry g => exact execBusyTimerExpiry_keepsMail g s
  | stuckDetected g => exact execStuckDetected_keepsMail g s
  | engineAddressByte g ack => exact execEngineAddressByte_keepsMail g ack s
  | engineWriteByte g ack => exact execEngineWriteByte_keepsMail g ack s
  | engineReadByte g b => exact execEngineReadByte_keepsMail g b s
  | closingStop g => exact execClosingStop_keepsMail g s
  | stopFailed g => exact execStopFailed_keepsMail g s
  | markCloseStop g => exact execMarkCloseStop_keepsMail g s
  | offlineCloseStop g => exact execOfflineCloseStop_keepsMail g s
  | arbitrationLost g => exact execArbitrationLost_keepsMail g s
  | stretchTimerExpiry g => exact execStretchTimerExpiry_keepsMail g s
  | clockReleased g => exact execClockReleased_keepsMail g s
  | releaseTimerExpiry g => exact execReleaseTimerExpiry_keepsMail g s
  | recoveryPulse g dataHigh => exact execRecoveryPulse_keepsMail g dataHigh s
  | recoveryStop g rose => exact execRecoveryStop_keepsMail g rose s
  | backoffTimerExpiry g held => exact execBackoffTimerExpiry_keepsMail g held s
  | pollTimerExpiry g held => exact execPollTimerExpiry_keepsMail g held s
  | coalescingTimerExpiry => exact onWire_mail (mail_if fun _ => rfl)
  | remoteStart g => exact onWire_keepsMail fun _ h => seeStart_mailInOrder h g
  | remoteAddressByte g b => exact execRemoteAddressByte_keepsMail g b s
  | remoteWriteByte g b => exact execRemoteWriteByte_keepsMail g b s
  | remoteReadByte g ack => exact execRemoteReadByte_keepsMail g ack s
  | remoteStop g => exact onWire_keepsMail fun _ h => seeStop_mailInOrder h g
  | remoteRepeatedStart g => exact onWire_keepsMail fun _ h => seeStart_mailInOrder h g
  | holdTimerExpiry g => exact execHoldTimerExpiry_keepsMail g s
  | lineChangeOutsideTransfer g line high => exact execLineChangeOutsideTransfer_keepsMail g line high s
  | timeBaseCount => exact execTimeBaseCount_keepsMail s

/-- Settles O10: with no reset under way a context takes a mailbox only where no other context makes the same use of it, and gives it up as it
leaves it; a reset puts every context in LISTEN, and its end every mailbox at EMPTY. -/
theorem everyStepKeepsMailboxes : Obligations.EveryStepKeepsMailboxes := by
  intro s t hp hs h
  unfold step at h
  split at h
  · cases h; exact hs
  · rename_i i rest _
    obtain ⟨u, hu, hkeeps⟩ := exec_keepsMail i { s with pending := rest }
    cases hu.symm.trans h
    exact hkeeps (powerInv_congr (s := s) rfl rfl rfl hp) (mailboxInv_congr (s := s) rfl rfl hs)

end Sys2Proof.Machine
end

section
/-! SUPPORT. The mailbox commands: RELEASE_INBOUND, COMMIT_OUTBOUND and CANCEL_OUTBOUND (section 8.7). -/

namespace Sys2Proof.Machine

open Sys2Proof.Safety Sys2Proof.Claims

/-! ### Changes of one mailbox and of one context -/

theorem onlyBox_of_updBox {s t u : State} {m : BoxId} (f : Mailbox → Mailbox) (hu : u.boxes = s.boxes)
    (ht : t.boxes = (u.updBox m f).boxes) : OnlyBox s t m (f (s.box m)) := by
  have hs : ∀ j, u.box j = s.box j := fun j => congrArg (fun v => v[j]) hu
  have hbox : ∀ j, t.box j = if j = m then f (s.box m) else s.box j := fun j => by
    rw [← hs, ← hs, ← updBox_box]; exact congrArg (fun v => v[j]) ht
  exact ⟨by rw [hbox, if_pos rfl], fun j hj => by rw [hbox, if_neg hj]⟩

/-- The outbound buffer of the changed mailbox, named by what it has become. -/
theorem onlyBox_outBuffer {s t : State} {m : BoxId} {b : Mailbox} (h : OnlyBox s t m b) :
    OnlyBox s t m { b with outBuffer := (t.box m).outBuffer } :=
  ⟨by rw [h.1], h.2⟩

theorem onlyContext_of_updCtx {s t u : State} {g : Seg} (k : RxContext → RxContext) (hu : u.segs = s.segs)
    (ht : t.segs = (u.updCtx g k).segs) : Claims.OnlyContext s t g (k (s.ctx g)) := by
  have honly := onlySegment_congr (onlySegment_updSeg u g (fun x => { x with ctx := k x.ctx })) hu.symm ht
  rw [seg_of_segs hu] at honly
  exact honly

/-! ### RELEASE_INBOUND -/

theorem releaseInbound_full {s : State} {m : BoxId} (h : (s.box m).inState = .full) :
    releaseInbound m s = accept (s.updBox m (fun b => { b with inState := .empty, inLength := 0 })) m.val := by
  simp only [releaseInbound, h]

theorem releaseInbound_empty {s : State} {m : BoxId} (h : (s.box m).inState = .empty) : releaseInbound m s = accept s m.val := by
  simp only [releaseInbound, h]

theorem releaseInbound_filling {s : State} {m : BoxId} (h : (s.box m).inState = .filling) :
    releaseInbound m s = refuse s .mailboxBusy m.val := by
  simp only [releaseInbound, h]

/-- The bytes of an inbound buffer of length 0 read 00h (R154). -/
theorem inWord_of_length_zero {b : Mailbox} (h : b.inLength = 0) {w : Nat} (hw : 1 ≤ w) : b.inWord w = 0 := by
  obtain ⟨k, rfl⟩ := Nat.exists_eq_add_of_le' hw
  simp [Mailbox.inWord, bufferWordTo, h, wordOf]

/-- Settles O23: by the state of the inbound buffer, and by whether the number names a mailbox. -/
theorem releaseInboundEmptiesTheBuffer : Obligations.ReleaseInboundEmptiesTheBuffer := by
  refine ⟨fun s m ho hn => ⟨fun hfull => ?_, fun hempty => ?_, fun hfilling => ?_⟩, fun s ho hn => ?_⟩
  · have hrun := (runCommand_number hn).trans
      (runCommand_accept ho (releaseInbound_full (s := storeCode Command.releaseInbound.code s) hfull))
    have honly := onlyBox_of_updBox (s := s) (m := m) (u := storeCode Command.releaseInbound.code s)
      (fun b => { b with inState := .empty, inLength := 0 }) rfl rfl
    exact ⟨_, congrArg Host.Outcome.next hrun, rfl, honly, fun w hw _ => inWord_of_length_zero (congrArg Mailbox.inLength honly.1) hw, rfl⟩
  · have hrun := (runCommand_number hn).trans
      (runCommand_accept ho (releaseInbound_empty (s := storeCode Command.releaseInbound.code s) hempty))
    exact ⟨_, congrArg Host.Outcome.next hrun, rfl⟩
  · exact ⟨_, congrArg Host.Outcome.next (runCommand_number hn),
      runCommand_refused ho (releaseInbound_filling (s := storeCode Command.releaseInbound.code s) hfilling) (by decide)⟩
  · exact ⟨_, rfl, runCommand_refused ho (withNumber_none hn) (by decide)⟩

/-! ### Held reads -/

/-- The one context that holds a read on a mailbox is its holder (R161). -/
theorem holder_eq_some {s : State} {m : BoxId} {g : Seg} (hg : (s.ctx g).phase = .holding) (hm : (s.ctx g).mailbox = m)
    (hone : ∀ h : Seg, (s.ctx h).phase = .holding → (s.ctx h).mailbox = m → h = g) : s.holder m = some g := by
  cases hfound : s.holder m with
  | none => exact absurd ⟨use_eq_hold.mpr hg, hm⟩ (holder_eq_none.mp hfound g)
  | some h =>
    obtain ⟨huse, hbox⟩ := uses_of_holder hfound
    rw [hone h (use_eq_hold.mp huse) hbox]

theorem not_held_iff {s : State} {m : BoxId} : ¬ Held s m ↔ s.holder m = none := by
  rw [holder_eq_none, not_exists]
  exact forall_congr' fun g => not_congr (and_congr_left' use_eq_hold.symm)

/-! ### COMMIT_OUTBOUND -/

/-- The bytes committed to an EMPTY buffer are LOADED, or taken by the held read (R164). -/
def handBytes (m : BoxId) (s : State) : State :=
  match s.holder m with
  | some g => serveHeld g ((commitBytes m s.argLength s).updBox m (fun b => { b with outState := .sending }))
  | none => commitBytes m s.argLength s

theorem commitOutbound_badLength {s : State} {m : BoxId} (h : s.argLength = 0 ∨ 32 < s.argLength) :
    commitOutbound m s = refuse s .badArgument m.val := if_pos h

theorem commitOutbound_busy {s : State} {m : BoxId} (h1 : 1 ≤ s.argLength) (h32 : s.argLength ≤ 32) (h : (s.box m).outState ≠ .empty) :
    commitOutbound m s = refuse s .mailboxBusy m.val := by
  rw [commitOutbound, if_neg (by omega), if_neg h]

theorem commitOutbound_empty {s : State} {m : BoxId} (h1 : 1 ≤ s.argLength) (h32 : s.argLength ≤ 32) (h : (s.box m).outState = .empty) :
    commitOutbound m s = accept (handBytes m s) m.val := by
  rw [commitOutbound, if_neg (by omega), if_pos h]
  rfl

theorem handBytes_unheld {s : State} {m : BoxId} (h : s.holder m = none) : handBytes m s = commitBytes m s.argLength s := by
  simp only [handBytes, h]

theorem handBytes_held {s : State} {m : BoxId} {g : Seg} (h : s.holder m = some g) :
    handBytes m s = serveHeld g (s.updBox m (fun b => { b with
      outState := .sending, outLength := s.argLength, outBuffer := copyBytes b.staging b.outBuffer s.argLength })) := by
  simp only [handBytes, h, commitBytes, updBox_updBox]

theorem handBytes_outBuffer (m : BoxId) (s : State) :
    ((handBytes m s).box m).outBuffer = copyBytes (s.box m).staging (s.box m).outBuffer s.argLength := by
  cases h : s.holder m with
  | none => rw [handBytes_unheld h, commitBytes, updBox_box, if_pos rfl]
  | some g => rw [handBytes_held h, serveHeld, updCtx_box, updBox_box, if_pos rfl]

theorem handBytes_win (m : BoxId) (s : State) : (handBytes m s).win = s.win := by
  unfold handBytes
  split <;> rfl

theorem byteAt_copyBytes (src dst : Vector Byte 32) (length : Nat) {i : Nat} (hi : i < 32) :
    byteAt (copyBytes src dst length) i = if i < length then byteAt src i else byteAt dst i := by
  have hlist : (copyBytes src dst length).toArray.toList = src.toArray.toList.take length ++ dst.toArray.toList.drop length := rfl
  have htake : (src.toArray.toList.take length).length = min length 32 := by simp
  simp only [byteAt, List.getD_eq_getElem?_getD, hlist]
  split
  · rw [List.getElem?_append_left (by omega), List.getElem?_take_of_lt ‹_›]
  · rw [List.getElem?_append_right (by omega), List.getElem?_drop, htake, show length + (i - min length 32) = i by omega]

/-- COMMIT_OUTBOUND by its length and by the state of the outbound buffer; a held read takes the bytes at once. -/
theorem commitOutbound_runs (s : State) (m : BoxId) (ho : s.windowOpen = true) (hn : s.argNumber = m.val) :
    (s.argLength = 0 ∨ 32 < s.argLength → ∃ t : State, exec .commitOutbound s = .next t ∧ RefusedWith s t 0x21#8 .badArgument m.val) ∧
    (1 ≤ s.argLength → s.argLength ≤ 32 → (s.box m).outState ≠ .empty →
      ∃ t : State, exec .commitOutbound s = .next t ∧ RefusedWith s t 0x21#8 .mailboxBusy m.val) ∧
    (1 ≤ s.argLength → s.argLength ≤ 32 → (s.box m).outState = .empty → exec .commitOutbound s =
      .next ((handBytes m (storeCode 0x21#8 s)).updWin (CmdResult.done.put m.val))) := by
  refine ⟨fun hlength => ?_, fun h1 h32 hbusy => ?_, fun h1 h32 hempty => ?_⟩
  · exact ⟨_, congrArg Host.Outcome.next (runCommand_number hn),
      runCommand_refused ho (commitOutbound_badLength (s := storeCode 0x21#8 s) hlength) (by decide)⟩
  · exact ⟨_, congrArg Host.Outcome.next (runCommand_number hn),
      runCommand_refused ho (commitOutbound_busy (s := storeCode 0x21#8 s) h1 h32 hbusy) (by decide)⟩
  · exact congrArg Host.Outcome.next
      ((runCommand_number hn).trans (runCommand_accept ho (commitOutbound_empty (s := storeCode 0x21#8 s) h1 h32 hempty)))

/-! ### CANCEL_OUTBOUND -/

theorem cancelOutbound_loaded {s : State} {m : BoxId} (h : (s.box m).outState = .loaded) :
    cancelOutbound m s = accept (s.updBox m (fun b => { b with outState := .empty, outLength := 0 })) m.val := by
  simp only [cancelOutbound, h]

theorem cancelOutbound_sending {s : State} {m : BoxId} (h : (s.box m).outState = .sending) :
    cancelOutbound m s = refuse s .mailboxBusy m.val := by
  simp only [cancelOutbound, h]

theorem cancelOutbound_unheld {s : State} {m : BoxId} (h : (s.box m).outState = .empty) (hn : s.holder m = none) :
    cancelOutbound m s = accept s m.val := by
  simp only [cancelOutbound, h, hn]

theorem cancelOutbound_held {s : State} {m : BoxId} {g : Seg} (h : (s.box m).outState = .empty) (hg : s.holder m = some g) :
    cancelOutbound m s = accept (serveFill g s) m.val := by
  simp only [cancelOutbound, h, hg]

/-- The held read of g is served with the fill byte (R162). -/
theorem serveFill_spec (g : Seg) (s : State) :
    Raises s (serveFill g s) [.mbUnderflow] ∧
      Claims.OnlyContext s (serveFill g s) g { s.ctx g with
        phase := .reading, count := 0, fill := true, underflow := true, stopped := false, holdTimer := none } ∧
      serveFill g s = { s with segs := (serveFill g s).segs, ev := (serveFill g s).ev } :=
  ⟨raises_updSeg_raise s g _ _, onlySegment_updSeg_raise s g _ _, rfl⟩

/-- Settles O24: COMMIT_OUTBOUND and CANCEL_OUTBOUND by the state of the outbound buffer and by the read that is held on it. -/
theorem outboundCommands : Obligations.OutboundCommands := by
  refine ⟨fun s m ho hn => ?_, fun s m ho hn => ⟨fun hloaded => ?_, fun hsending => ?_, fun hempty hfree => ?_, fun g hempty hg hm hone => ?_⟩⟩
  · obtain ⟨hlength, hbusy, hrun⟩ := commitOutbound_runs s m ho hn
    refine ⟨hlength, hbusy, fun h1 h32 hempty => ⟨_, hrun h1 h32 hempty, ?_, fun i hi => ?_, fun hfree => ?_, fun g hg hm hone => ?_⟩⟩
    · rw [updWin_win, handBytes_win]
      rfl
    · rw [updWin_box, handBytes_outBuffer]
      exact byteAt_copyBytes _ _ _ hi
    · rw [handBytes_unheld (s := storeCode 0x21#8 s) (not_held_iff.mp hfree)]
      exact ⟨onlyBox_outBuffer (onlyBox_of_updBox (u := storeCode 0x21#8 s) (fun b => { b with
        outState := .loaded, outLength := s.argLength, outBuffer := copyBytes b.staging b.outBuffer s.argLength }) rfl rfl), rfl⟩
    · rw [handBytes_held (s := storeCode 0x21#8 s) (holder_eq_some hg hm hone)]
      refine ⟨onlyBox_outBuffer (onlyBox_of_updBox (u := storeCode 0x21#8 s) (fun b => { b with
          outState := .sending, outLength := s.argLength, outBuffer := copyBytes b.staging b.outBuffer s.argLength }) rfl rfl), ?_, rfl⟩
      exact onlyContext_of_updCtx (u := s) (fun c => { c with
        phase := .reading, count := 0, fill := false, underflow := false, stopped := false, holdTimer := none }) rfl rfl
  · have hrun := (runCommand_number hn).trans (runCommand_accept ho (cancelOutbound_loaded (s := storeCode 0x22#8 s) hloaded))
    exact ⟨_, congrArg Host.Outcome.next hrun, rfl, onlyBox_of_updBox (u := storeCode 0x22#8 s)
      (fun b => { b with outState := .empty, outLength := 0 }) rfl rfl, rfl⟩
  · exact ⟨_, congrArg Host.Outcome.next (runCommand_number hn),
      runCommand_refused ho (cancelOutbound_sending (s := storeCode 0x22#8 s) hsending) (by decide)⟩
  · have hrun := (runCommand_number hn).trans
      (runCommand_accept ho (cancelOutbound_unheld (s := storeCode 0x22#8 s) hempty (not_held_iff.mp hfree)))
    exact ⟨_, congrArg Host.Outcome.next hrun, rfl⟩
  · have hrun := (runCommand_number hn).trans
      (runCommand_accept ho (cancelOutbound_held (s := storeCode 0x22#8 s) hempty (holder_eq_some hg hm hone)))
    obtain ⟨hraises, honly, -⟩ := serveFill_spec g (storeCode 0x22#8 s)
    exact ⟨_, congrArg Host.Outcome.next hrun, rfl, raises_congr hraises rfl rfl, onlySegment_congr honly rfl rfl, rfl⟩

end Sys2Proof.Machine
end

section
/-! SUPPORT. The transfers of other controllers: their starts and stops, the evaluation of an address byte, and the data bytes (chapter 8). -/

namespace Sys2Proof.Machine

open Sys2Proof.Safety Sys2Proof.Claims

/-! ### Starts and stops -/

/-- The busy timer of an engine in WAIT_FREE starts, and goes on in a transfer that is known already (R68). -/
theorem becomeBusy_eq (x : Segment) :
    becomeBusy x = { x.engine with
      busyTimer := if x.engine.state = .waitFree ∧ (x.known = false ∨ x.engine.busyTimer = none) then some (x.config.busBusyLimit.toNat * 1000)
        else x.engine.busyTimer } := by
  simp only [becomeBusy, Option.isNone_iff_eq_none]
  split <;> rfl

/-- The phase of a context ends as the bus watch records a start or a stop (R151). -/
theorem endPhase_updSeg_spec {s u : State} {g : Seg} {f : Segment → Segment} {p : Phase} (hf : (f (s.seg g)).ctx = s.ctx g)
    (hu : u = (endPhase g (s.updSeg g f)).updCtx g (fun _ => RxContext.inPhase p)) :
    EndsTransfer s u g ∧ OnlySegment s u g { f (s.seg g) with ctx := { phase := p } } ∧
      u = { s with ev := u.ev, boxes := u.boxes, segs := u.segs } := by
  have hends := (endPhase_spec g (s.updSeg g f)).1
  have honly := onlySegment_trans (onlySegment_updSeg s g f) (onlySegment_endPhase_updCtx g _ (RxContext.inPhase p))
  rw [updSeg_seg, if_pos rfl] at honly
  rw [hu]
  refine ⟨endsTransfer_congr hends ?_ rfl rfl rfl rfl, honly, ?_⟩
  · rw [updSeg_ctx, if_pos rfl, hf]
  · exact state_ext (by simp) rfl (by simp) (by simp) (by simp) rfl (by simp) rfl (by simp) (by simp)

/-- A start or a stop is seen on a watched segment whose engine does not control the transfer and whose context holds no read (R64, R86, R161). -/
abbrev SeesEdges (s : State) (g : Seg) : Prop :=
  (s.seg g).watched ∧ (s.engine g).controls = false ∧ (s.ctx g).phase ≠ .holding

theorem seesEdges_of_serving {s : State} {g : Seg} {p : Phase} (h : Serving s g p) (hp : p ≠ .holding) : SeesEdges s g := by
  obtain ⟨hup, ht, hr, rfl⟩ := h
  exact ⟨(watched_iff _).mpr (.inl hup), (controls_eq_false_iff _).mpr ⟨ht, hr⟩, hp⟩

theorem seesEdges_of_recovering {s : State} {g : Seg} (h : (s.seg g).state = .recovering) (he : (s.engine g).state = .recovery)
    (hh : (s.ctx g).phase ≠ .holding) : SeesEdges s g :=
  ⟨(watched_iff _).mpr (.inr h), (controls_eq_false_iff _).mpr (by simp [he]), hh⟩

theorem not_seesEdges {s : State} {g : Seg}
    (h : (s.engine g).state = .transfer ∨ (s.engine g).state = .releaseWait ∨ (s.ctx g).phase = .holding) : ¬ SeesEdges s g := by
  rintro ⟨-, hcontrols, hphase⟩
  rw [controls_eq_false_iff] at hcontrols
  obtain h | h | h := h
  · exact hcontrols.1 h
  · exact hcontrols.2 h
  · exact hphase h

/-- A start as the bus watch records it (R62, R64, R68). -/
def watchStart (x : Segment) : Segment := { x with known := true, sclHigh := true, sdaHigh := false, engine := becomeBusy x }

/-- A stop as the bus watch records it (R64, R68). -/
def watchStop (x : Segment) : Segment :=
  { x with known := false, sclHigh := true, sdaHigh := true, engine := { x.engine with busyTimer := none } }

theorem seeStart_eq (g : Seg) (s : State) :
    seeStart g s = if SeesEdges s g then
      if (s.seg g).state = .up then contextStart g (s.updSeg g watchStart) else s.updSeg g watchStart
    else s := rfl

theorem seeStop_eq (g : Seg) (s : State) :
    seeStop g s = if SeesEdges s g then
      if (s.seg g).state = .up then contextStop g (s.updSeg g watchStop) else s.updSeg g watchStop
    else s := rfl

theorem exec_remoteStart {i : Instr} {g : Seg} (s : State) (h : i = .remoteStart g ∨ i = .remoteRepeatedStart g) :
    exec i s = .next (onWire (seeStart g) s) := by
  obtain rfl | rfl := h <;> rfl

theorem onWire_self {f : State → State} {s : State} (h : f s = s) : onWire f s = s := by
  unfold onWire
  split
  · exact h
  · rfl

/-- Settles O58: on an UP segment the watch and the context see a start and a stop, on a RECOVERING one the watch alone, and they are not seen
while the engine controls the transfer or a read is held. -/
theorem remoteStartsAndStops : Obligations.RemoteStartsAndStops := by
  refine ⟨fun i s g p hi ho hs hp _ => ?_, fun s g p ho hs hp _ => ?_, fun s g ho hrec he hh => ⟨fun i hi => ?_, ?_⟩, fun i s g hi h => ?_⟩
  · have hseen : seeStart g s = contextStart g (s.updSeg g watchStart) := by
      rw [seeStart_eq, if_pos (seesEdges_of_serving hs hp), if_pos hs.1]
    obtain ⟨hends, honly, hframe⟩ := endPhase_updSeg_spec (f := watchStart) (p := .address) rfl hseen
    rw [watchStart, becomeBusy_eq] at honly
    exact ⟨_, (exec_remoteStart s hi).trans (congrArg Host.Outcome.next (onWire_live _ ho)), hends, honly, hframe⟩
  · have hseen : seeStop g s = contextStop g (s.updSeg g watchStop) := by
      rw [seeStop_eq, if_pos (seesEdges_of_serving hs hp), if_pos hs.1]
    obtain ⟨hends, honly, hframe⟩ := endPhase_updSeg_spec (f := watchStop) (p := .listen) rfl hseen
    exact ⟨_, congrArg Host.Outcome.next (onWire_live _ ho), hends, honly, hframe⟩
  · have hseen : seeStart g s = s.updSeg g watchStart := by
      rw [seeStart_eq, if_pos (seesEdges_of_recovering hrec he hh), if_neg (by simp [hrec])]
    have hidle : becomeBusy (s.seg g) = s.engine g := if_neg fun hc => nomatch hc.1.symm.trans he
    have honly := onlySegment_updSeg s g watchStart
    rw [watchStart, hidle] at honly
    exact ⟨_, (exec_remoteStart s hi).trans (congrArg Host.Outcome.next ((onWire_live _ ho).trans hseen)), honly, rfl⟩
  · have hseen : seeStop g s = s.updSeg g watchStop := by
      rw [seeStop_eq, if_pos (seesEdges_of_recovering hrec he hh), if_neg (by simp [hrec])]
    exact ⟨_, congrArg Host.Outcome.next ((onWire_live _ ho).trans hseen), onlySegment_updSeg s g watchStop, rfl⟩
  · have hunseen := not_seesEdges h
    obtain rfl | rfl | rfl := hi
    · exact congrArg Host.Outcome.next (onWire_self (if_neg hunseen))
    · exact congrArg Host.Outcome.next (onWire_self (if_neg hunseen))
    · exact congrArg Host.Outcome.next (onWire_self (if_neg hunseen))

/-! ### The evaluation of an address byte -/

/-- The bits that a mask selects agree exactly when their difference is masked out. -/
theorem xor_and_eq_zero_iff {n : Nat} (a b m : BitVec n) : (a ^^^ b) &&& m = 0#n ↔ a &&& m = b &&& m := by
  have hmasked : (a ^^^ b) &&& m = (a &&& m) ^^^ (b &&& m) := by
    ext i hi
    simp [Bool.and_xor_distrib_right]
  rw [hmasked, BitVec.xor_eq_zero_iff]

/-- An entry fits a usable address as R152 says. -/
theorem matches_iff {s : State} {e : EntryId} {g : Seg} {a : BitVec 7} :
    Matches s e g a ↔ (Config.lowAddress.toNat ≤ a.toNat ∧ a.toNat ≤ Config.highAddress.toNat) ∧ (s.entry e).fits g a = true := by
  simp only [MatchEntry.fits, Bool.and_eq_true, decide_eq_true_eq, beq_iff_eq, and_assoc]
  exact and_congr_right' (and_congr_right' (and_congr_right' (and_congr_right' (xor_and_eq_zero_iff _ _ _).symm)))

/-- The entries are searched in the order of their numbers. -/
theorem matching_of_firstMatch {s : State} {e : EntryId} {g : Seg} {a : BitVec 7} (h : FirstMatch s e g a) : s.matching g a = some e := by
  obtain ⟨hmatch, hfirst⟩ := h
  obtain ⟨husable, hfits⟩ := matches_iff.mp hmatch
  have hbefore : ∀ d, d < e → (s.entry d).fits g a = false := fun d hd => by
    simpa [husable] using mt (fun hf => matches_iff.mpr ⟨husable, hf⟩) (hfirst d hd)
  rw [State.matching, if_pos husable]
  refine List.find?_eq_some_iff_append.mpr ⟨hfits, ?_⟩
  obtain ⟨before, after, hsplit⟩ := List.append_of_mem (show e ∈ allEntries by fin_cases e <;> decide)
  have hsorted : allEntries.Pairwise (· < ·) := by decide
  rw [hsplit, List.pairwise_append] at hsorted
  exact ⟨before, after, hsplit, fun d hd => by simp [hbefore d (hsorted.2.2 d hd e List.mem_cons_self)]⟩

theorem matching_eq_none {s : State} {g : Seg} {a : BitVec 7} (h : ∀ e, ¬ Matches s e g a) : s.matching g a = none := by
  unfold State.matching
  split
  · rename_i husable
    exact List.find?_eq_none.mpr fun e _ hf => h e (matches_iff.mpr ⟨husable, hf⟩)
  · rfl

theorem served_of_serving {s : State} {g : Seg} {p : Phase} (h : Serving s g p) : s.served g p = true := by
  obtain ⟨hup, ht, hr, hp⟩ := h
  simp [State.served, hup, (controls_eq_false_iff _).mpr ⟨ht, hr⟩, hp]

theorem evaluateAddress_unmatched {s : State} {g : Seg} {b : Byte} (h : ∀ e, ¬ Matches s e g (b.extractLsb' 1 7)) :
    evaluateAddress g b s = leaveAddress g s := by
  simp only [evaluateAddress, matching_eq_none h]

theorem evaluateAddress_write {s : State} {g : Seg} {b : Byte} {e : EntryId} (h : FirstMatch s e g (b.extractLsb' 1 7))
    (hb : b.getLsbD 0 = false) : evaluateAddress g b s = answerWrite g e s := by
  simp only [evaluateAddress, matching_of_firstMatch h, hb, Direction.ofBit, Bool.false_eq_true, if_false]

theorem evaluateAddress_read {s : State} {g : Seg} {b : Byte} {e : EntryId} (h : FirstMatch s e g (b.extractLsb' 1 7))
    (hb : b.getLsbD 0 = true) : evaluateAddress g b s = answerRead g e s := by
  simp only [evaluateAddress, matching_of_firstMatch h, hb, Direction.ofBit, if_true]

theorem answerWrite_empty {s : State} {g : Seg} {e : EntryId} (h : (s.box (s.entry e).mailbox).inState = .empty) :
    answerWrite g e s = (s.updBox (s.entry e).mailbox (fun b => { b with inState := .filling, inLength := 0 })).updCtx g
      (fun _ => latched e (s.entry e) .write .writing none) := if_pos h

theorem answerWrite_refused {s : State} {g : Seg} {e : EntryId} (h : (s.box (s.entry e).mailbox).inState ≠ .empty) :
    answerWrite g e s = refuseAddress g s := if_neg h

theorem answerRead_loaded {s : State} {g : Seg} {e : EntryId} (h : (s.box (s.entry e).mailbox).outState = .loaded) :
    answerRead g e s = (s.updBox (s.entry e).mailbox (fun b => { b with outState := .sending })).updCtx g
      (fun _ => latched e (s.entry e) .read .reading none) := by
  simp only [answerRead, h]
  rfl

theorem answerRead_held {s : State} {g : Seg} {e : EntryId} (h : (s.box (s.entry e).mailbox).outState = .empty)
    (hfree : ¬ Held s (s.entry e).mailbox) (hhold : (s.entry e).readHold = true) :
    answerRead g e s =
      s.updCtx g (fun _ => latched e (s.entry e) .read .holding (some ((s.entry e).holdLimit.toNat * 1000))) := by
  simp only [answerRead, h, not_held_iff.mp hfree, hhold, Option.isNone_none, and_self, if_true]
  rfl

theorem answerRead_refused {s : State} {g : Seg} {e : EntryId}
    (h : (s.box (s.entry e).mailbox).outState = .sending ∨
      ((s.box (s.entry e).mailbox).outState = .empty ∧ (Held s (s.entry e).mailbox ∨ (s.entry e).readHold = false))) :
    answerRead g e s = refuseAddress g s := by
  obtain h | ⟨h, hno⟩ := h
  · simp only [answerRead, h]
  · simp only [answerRead, h]
    refine if_neg fun ⟨hnone, hhold⟩ => ?_
    obtain hheld | hplain := hno
    · exact not_held_iff.mpr (Option.isNone_iff_eq_none.mp hnone) hheld
    · exact nomatch hplain.symm.trans hhold

/-- A refused address leaves the context out of the transfer, with MB_REFUSED (R155, R158). -/
theorem refuseAddress_spec (g : Seg) (s : State) :
    Claims.OnlyContext s (refuseAddress g s) g { phase := .unaddressed } ∧ Raises s (refuseAddress g s) [.mbRefused] ∧
      refuseAddress g s = { s with segs := (refuseAddress g s).segs, ev := (refuseAddress g s).ev } :=
  ⟨onlySegment_updSeg_raise s g _ _, raises_updSeg_raise s g _ _, rfl⟩

/-- Settles O59: the entry that the address matches first answers it by the state of its mailbox. -/
theorem remoteAddresses : Obligations.RemoteAddresses := by
  intro s g b ho hs
  have hrun : exec (.remoteAddressByte g b) s = .next (evaluateAddress g b s) :=
    congrArg Host.Outcome.next ((onWire_live _ ho).trans (if_pos (served_of_serving hs)))
  refine ⟨_, hrun, fun hnone => ?_, fun e he => ⟨fun hb h => ?_, fun hb h => ?_, fun hb h => ?_, fun hb h hfree hhold => ?_, fun hb h => ?_⟩⟩
  · rw [evaluateAddress_unmatched hnone]
    exact ⟨onlySegment_updSeg s g _, rfl⟩
  · rw [evaluateAddress_write he hb, answerWrite_refused h]
    exact refuseAddress_spec g s
  · rw [evaluateAddress_write he hb, answerWrite_empty h]
    exact ⟨onlyContext_of_updCtx (u := s) (fun _ => latched e (s.entry e) .write .writing none) rfl rfl,
      onlyBox_of_updBox (u := s) (fun b => { b with inState := .filling, inLength := 0 }) rfl rfl, rfl⟩
  · rw [evaluateAddress_read he hb, answerRead_loaded h]
    exact ⟨onlyContext_of_updCtx (u := s) (fun _ => latched e (s.entry e) .read .reading none) rfl rfl,
      onlyBox_of_updBox (u := s) (fun b => { b with outState := .sending }) rfl rfl, rfl⟩
  · rw [evaluateAddress_read he hb, answerRead_held h hfree hhold]
    exact ⟨onlySegment_updSeg s g _, rfl⟩
  · rw [evaluateAddress_read he hb, answerRead_refused h]
    exact refuseAddress_spec g s

/-! ### Data bytes -/

theorem receiveByte_stored {s : State} {g : Seg} {m : BoxId} (b : Byte) (h : (s.box m).inLength < 32) :
    receiveByte g m b s =
      (s.updBox m (fun x => { x with inBuffer := setByte x.inBuffer x.inLength b, inLength := x.inLength + 1 })).updCtx g
        (fun c => { c with count := c.count + 1, acked := true }) := if_pos h

/-- A byte beyond 32 is NACKed, and the first of them sets MB_OVERFLOW (R156). -/
theorem receiveByte_overflow {s : State} {g : Seg} {m : BoxId} (b : Byte) (h : 32 ≤ (s.box m).inLength) :
    Claims.OnlyContext s (receiveByte g m b s) g { s.ctx g with count := (s.ctx g).count + 1, overflow := true, acked := false } ∧
      Raises s (receiveByte g m b s) (if (s.ctx g).overflow then [] else [.mbOverflow]) ∧
      receiveByte g m b s = { s with segs := (receiveByte g m b s).segs, ev := (receiveByte g m b s).ev } := by
  have hfull : ¬ (s.box m).inLength < Config.bufferBytes := Nat.not_lt.mpr h
  by_cases ho : (s.ctx g).overflow = true
  · have hagain : receiveByte g m b s = s.updCtx g (fun c => { c with count := c.count + 1, acked := false }) :=
      (if_neg hfull).trans (if_pos ho)
    have honly := onlySegment_updSeg s g (fun x => { x with ctx := { x.ctx with count := x.ctx.count + 1, acked := false } })
    rw [hagain, if_pos ho, ← ho]
    exact ⟨honly, raises_refl s, rfl⟩
  · have hfirst : receiveByte g m b s =
        (s.updCtx g (fun c => { c with count := c.count + 1, acked := false, overflow := true })).raise .mbOverflow :=
      (if_neg hfull).trans (if_neg ho)
    rw [hfirst, if_neg ho]
    exact ⟨onlySegment_updSeg_raise s g _ _, raises_updSeg_raise s g _ _, rfl⟩

theorem sendByte_buffered {s : State} {g : Seg} (ack : Bool) (hf : (s.ctx g).fill = false)
    (hc : (s.ctx g).count < (s.box (s.ctx g).mailbox).outLength) :
    sendByte g ack s = s.updCtx g (fun c => { c with
      count := c.count + 1, sent := byteAt (s.box (s.ctx g).mailbox).outBuffer (s.ctx g).count, stopped := !ack }) := by
  simp only [sendByte, State.nextSent, hf, hc, and_self, if_true]

/-- A byte after those of the buffer, or of a read in fill, is the fill byte, and the first of them sets MB_UNDERFLOW (R159, R162). -/
theorem sendByte_underflow {s : State} {g : Seg} (ack : Bool)
    (h : (s.ctx g).fill = true ∨ (s.box (s.ctx g).mailbox).outLength ≤ (s.ctx g).count) :
    Claims.OnlyContext s (sendByte g ack s) g { s.ctx g with underflow := true, sent := 0xFF#8, stopped := !ack } ∧
      Raises s (sendByte g ack s) (if (s.ctx g).underflow then [] else [.mbUnderflow]) ∧
      sendByte g ack s = { s with segs := (sendByte g ack s).segs, ev := (sendByte g ack s).ev } := by
  have hlasts : ¬ ((s.ctx g).fill = false ∧ (s.ctx g).count < (s.box (s.ctx g).mailbox).outLength) := by
    rintro ⟨hf, hc⟩
    obtain h | h := h
    · exact nomatch hf.symm.trans h
    · omega
  have hsent : s.nextSent g = 0xFF#8 := if_neg hlasts
  by_cases hu : (s.ctx g).underflow = true
  · have hagain : sendByte g ack s = s.updCtx g (fun c => { c with sent := 0xFF#8, stopped := !ack }) :=
      (if_neg hlasts).trans ((if_pos hu).trans (by rw [hsent]))
    have honly := onlySegment_updSeg s g (fun x => { x with ctx := { x.ctx with sent := 0xFF#8, stopped := !ack } })
    rw [hagain, if_pos hu, ← hu]
    exact ⟨honly, raises_refl s, rfl⟩
  · have hfirst : sendByte g ack s = (s.updCtx g (fun c => { c with sent := 0xFF#8, stopped := !ack, underflow := true })).raise
        .mbUnderflow :=
      (if_neg hlasts).trans ((if_neg hu).trans (by rw [hsent]))
    rw [hfirst, if_neg hu]
    exact ⟨onlySegment_updSeg_raise s g _ _, raises_updSeg_raise s g _ _, rfl⟩

/-- Settles O60: a byte is stored or sent while its buffer lasts, and else sets the flag of its context's indication. -/
theorem remoteDataBytes : Obligations.RemoteDataBytes := by
  refine ⟨fun s g b ho hs => ?_, fun s g ack ho hs hstopped => ?_, fun s g ho hhold htimer => ?_⟩
  · have hrun : exec (.remoteWriteByte g b) s = .next (receiveByte g (s.ctx g).mailbox b s) :=
      congrArg Host.Outcome.next ((onWire_live _ ho).trans (if_pos (served_of_serving hs)))
    refine ⟨_, hrun, fun hroom => ?_, fun hfull => receiveByte_overflow b hfull⟩
    have honly := onlyBox_of_updBox (s := s) (t := receiveByte g (s.ctx g).mailbox b s) (u := s) (m := (s.ctx g).mailbox)
      (fun x => { x with inBuffer := setByte x.inBuffer x.inLength b, inLength := x.inLength + 1 }) rfl
      (by rw [receiveByte_stored b hroom]; rfl)
    refine ⟨?_, ⟨by rw [honly.1], honly.2⟩, fun i hi => ?_, ?_⟩
    · rw [receiveByte_stored b hroom]
      exact onlyContext_of_updCtx (u := s) (fun c => { c with count := c.count + 1, acked := true }) rfl rfl
    · rw [honly.1]
      exact byteAt_setByte _ _ _ _ hi
    · rw [receiveByte_stored b hroom]
      rfl
  · have hrun : exec (.remoteReadByte g ack) s = .next (sendByte g ack s) :=
      congrArg Host.Outcome.next ((onWire_live _ ho).trans (if_pos ⟨served_of_serving hs, hstopped⟩))
    refine ⟨_, hrun, fun hfill hcount => ?_, fun hends => sendByte_underflow ack hends⟩
    rw [sendByte_buffered ack hfill hcount]
    exact ⟨onlySegment_updSeg s g _, rfl⟩
  · have hrun : exec (.holdTimerExpiry g) s = .next (serveFill g s) :=
      congrArg Host.Outcome.next ((onWire_live _ ho).trans (if_pos ⟨hhold, htimer⟩))
    obtain ⟨hraises, honly, hframe⟩ := serveFill_spec g s
    exact ⟨_, hrun, hraises, honly, hframe⟩

end Sys2Proof.Machine
end

section
/-! SUPPORT. Writes of EVT with the queue's answer, and the enables with INT# (R123, R171, R173, R174). -/

namespace Sys2Proof.Machine

/-! ### A write of EVT -/

/-- A 1 written to CQ_READY while it is clear, or a 0, is not answered by the queue (R123). -/
theorem clearFlags_unanswered {s : State} {ones : Word} (h : s.clearsReady ones = false) : s.clearFlags ones = s.dropFlags ones := by
  rw [clearFlags_eq, h]; rfl

/-- A depth that still reaches the threshold sets CQ_READY again (R123). -/
theorem clearFlags_reached {s : State} {ones : Word} (h : s.clearsReady ones = true) (hreach : s.cq.threshold.toNat ≤ s.depth) :
    s.clearFlags ones = (s.dropFlags ones).signalQueue := by
  rw [clearFlags_eq, if_pos h, if_pos hreach]

/-- Records below the threshold start the timer, where the delay allows one (R123). -/
theorem clearFlags_below {s : State} {ones : Word} (h : s.clearsReady ones = true) (hbelow : s.depth < s.cq.threshold.toNat)
    (hsome : 1 ≤ s.depth) : s.clearFlags ones = (s.dropFlags ones).startCoalescing := by
  have hqueue : ¬ s.cq.queue.isEmpty = true := fun he => by simp [State.depth, List.isEmpty_iff.mp he] at hsome
  rw [clearFlags_eq, if_pos h, if_neg (not_le.mpr hbelow), if_neg hqueue]

/-- An empty queue has nothing to signal (R123). -/
theorem clearFlags_empty {s : State} {ones : Word} (h : s.clearsReady ones = true) (hbelow : s.depth < s.cq.threshold.toNat)
    (hempty : s.depth = 0) : s.clearFlags ones = s.dropFlags ones := by
  have hqueue : s.cq.queue.isEmpty = true := List.isEmpty_iff.mpr (List.length_eq_zero_iff.mp hempty)
  rw [clearFlags_eq, if_pos h, if_neg (not_le.mpr hbelow), if_pos hqueue]

/-- With a delay of 0 the timer stands still. -/
theorem startCoalescing_cq_of_delay_zero {s : State} (h : s.cq.delay = 0) : s.startCoalescing.cq = s.cq := by
  rw [State.startCoalescing, if_pos h]

theorem startCoalescing_timer {s : State} (h : s.cq.delay ≠ 0) : s.startCoalescing.cq.timer = some (s.cq.delay.toNat * 100) := by
  rw [startCoalescing_eq]; exact if_neg h

/-- What a write of EVT does, said once: the flags written as 1 fall, CQ_READY is set again, or the timer starts. -/
theorem clearFlags_cases (s : State) (ones : Word) :
    s.clearFlags ones = s.dropFlags ones ∨ s.clearFlags ones = (s.dropFlags ones).signalQueue ∨
      s.clearFlags ones = (s.dropFlags ones).startCoalescing := by
  rw [clearFlags_eq]
  split
  · split
    · exact .inr (.inl rfl)
    · split
      · exact .inl rfl
      · exact .inr (.inr rfl)
  · exact .inl rfl

/-- A write of EVT changes flags and the coalescing timer alone. -/
theorem clearFlags_frame (s : State) (ones : Word) :
    (s.clearFlags ones).ev = { s.ev with flags := (s.clearFlags ones).ev.flags } ∧
      (s.clearFlags ones).cq = { s.cq with timer := (s.clearFlags ones).cq.timer } ∧
      s.clearFlags ones = { s with ev := (s.clearFlags ones).ev, cq := (s.clearFlags ones).cq } := by
  obtain h | h | h := clearFlags_cases s ones
  · rw [h]; exact ⟨rfl, rfl, rfl⟩
  · rw [h]; exact ⟨rfl, rfl, rfl⟩
  · rw [h, startCoalescing_eq]; exact ⟨rfl, rfl, rfl⟩

/-- CQ_READY apart, a flag stays set exactly where no 1 is written (R171). -/
theorem clearFlags_flag (s : State) (ones : Word) {e : EventFlag} (he : e ≠ .cqReady) :
    (s.clearFlags ones).flag e = (s.flag e && !ones.getLsbD e.bit) := by
  rw [← dropFlags_flag]
  obtain h | h | h := clearFlags_cases s ones
  · rw [h]
  · rw [h, signalQueue_flag, decide_eq_false he, Bool.or_false]
  · rw [h, startCoalescing_flag]

/-- A clear that changes CQ_READY drops it, before the queue answers. -/
theorem dropFlags_ready {s : State} {ones : Word} (h : s.clearsReady ones = true) : (s.dropFlags ones).flag .cqReady = false := by
  rw [dropFlags_flag, (Bool.and_eq_true_iff.mp h).2]
  exact Bool.and_false _

/-- Settles O34: the write drops the flags written as 1, and where that drops CQ_READY the depth, the threshold and the delay decide. -/
theorem eventWritesClearFlags : Obligations.EventWritesClearFlags := by
  intro s v ho
  obtain ⟨hev, hcq, hframe⟩ := clearFlags_frame s v
  refine ⟨s.clearFlags v, congrArg Host.Outcome.next (onWindow_open _ ho), hev, hcq, hframe, fun e he => ?_, fun hkeeps => ?_,
    fun hone hset hreach => ?_, fun hone hset hbelow hsome hdelay => ?_, fun hone hset hbelow hrests => ?_⟩
  · rw [clearFlags_flag s v he]; simp
  · have hclears : s.clearsReady v = false := by rw [State.clearsReady, Bool.and_eq_false_iff]; exact hkeeps.symm
    have hsame := dropFlags_signals hclears
    rw [clearFlags_unanswered hclears]
    exact ⟨congrArg Signals.ready hsame, rfl⟩
  · rw [clearFlags_reached (Bool.and_eq_true_iff.mpr ⟨hset, hone⟩) hreach]
    exact ⟨by simp, rfl⟩
  · have hclears : s.clearsReady v = true := Bool.and_eq_true_iff.mpr ⟨hset, hone⟩
    rw [clearFlags_below hclears hbelow hsome, startCoalescing_flag, dropFlags_ready hclears]
    exact ⟨rfl, startCoalescing_timer hdelay⟩
  · have hclears : s.clearsReady v = true := Bool.and_eq_true_iff.mpr ⟨hset, hone⟩
    by_cases hempty : s.depth = 0
    · rw [clearFlags_empty hclears hbelow hempty]
      exact ⟨dropFlags_ready hclears, rfl⟩
    · rw [clearFlags_below hclears hbelow (Nat.pos_of_ne_zero hempty), startCoalescing_flag, dropFlags_ready hclears]
      exact ⟨rfl, startCoalescing_cq_of_delay_zero (s := s.dropFlags v) (hrests.resolve_left hempty)⟩

/-! ### The enables and INT# -/

/-- Two words of flags share a bit exactly where they share a flag, since every bit is a flag's (section 10.2). -/
theorem and_ne_zero_iff {x y : Word} : x &&& y ≠ 0 ↔ ∃ e : EventFlag, x.getLsbD e.bit = true ∧ y.getLsbD e.bit = true := by
  constructor
  · intro hne
    by_contra hnone
    refine hne (flags_ext fun e => ?_)
    rw [BitVec.getLsbD_and, show (0 : Word).getLsbD e.bit = false from BitVec.getLsbD_zero, Bool.and_eq_false_imp, ← Bool.not_eq_true]
    exact fun hx hy => hnone ⟨e, hx, hy⟩
  · rintro ⟨e, hx, hy⟩ hzero
    have hbit : (x &&& y).getLsbD e.bit = true := by rw [BitVec.getLsbD_and, hx, hy]; rfl
    rw [hzero] at hbit
    simp at hbit

theorem intAsserted_iff (s : State) :
    s.intAsserted = true ↔
      s.rstHeld = false ∧ s.win.intEnable = true ∧ ∃ e : EventFlag, s.flag e = true ∧ s.ev.enables.getLsbD e.bit = true := by
  simp only [State.intAsserted, Bool.and_eq_true, Bool.not_eq_true', bne_iff_ne, and_ne_zero_iff, and_assoc, State.flag]

/-- Settles O35: both writes store their fields alone, and INT# reads the flags and the enables bit by bit. -/
theorem enablesAndTheInterruptLine : Obligations.EnablesAndTheInterruptLine :=
  ⟨fun _ v ho => congrArg Host.Outcome.next (onWindow_open (writeEvten v) ho),
    fun _ v ho => congrArg Host.Outcome.next (onWindow_open (writeCtl v) ho), intAsserted_iff⟩

end Sys2Proof.Machine
end

section
/-! SUPPORT. The snapshot of the time base under the operations that the rows share, which change no more of the Event Unit than its flags (R176). -/

namespace Sys2Proof.Machine

/-! ### How a row is taken -/

/-- What changes no more of the Event Unit than its flags keeps the snapshot. -/
theorem snapshot_of_flags {s t : State} {flags : Word} (h : t.ev = { s.ev with flags := flags }) : t.ev.snapshot = s.ev.snapshot := by
  rw [h]

/-- A condition chooses between states, not between parts of them. -/
@[simp] theorem snapshot_ite {c : Prop} [Decidable c] (t u : State) :
    (if c then t else u).ev.snapshot = if c then t.ev.snapshot else u.ev.snapshot := apply_ite (fun s : State => s.ev.snapshot) c t u

/-- The states of a row in which its condition fails. -/
theorem snapshot_if {c : Prop} [Decidable c] {s t : State} (h : c → t.ev.snapshot = s.ev.snapshot) :
    (if c then t else s).ev.snapshot = s.ev.snapshot := by
  split
  · rename_i hc; exact h hc
  · rfl

theorem onWindow_snapshot {f : State → State} {s : State} (h : (f s).ev.snapshot = s.ev.snapshot) :
    (onWindow f s).ev.snapshot = s.ev.snapshot := snapshot_if fun _ => h

theorem onWire_snapshot {f : State → State} {s : State} (h : (f s).ev.snapshot = s.ev.snapshot) :
    (onWire f s).ev.snapshot = s.ev.snapshot := snapshot_if fun _ => h

/-! ### The queue and the completion of a slot -/

@[simp] theorem startCoalescing_snapshot (s : State) : s.startCoalescing.ev.snapshot = s.ev.snapshot := by rw [startCoalescing_eq]

@[simp] theorem completeSlot_snapshot (n : SlotId) (st : Status) (s : State) : (completeSlot n st s).ev.snapshot = s.ev.snapshot :=
  snapshot_of_flags (completeSlot_completes s n st).2.1.1

@[simp] theorem completeActive_snapshot (g : Seg) (st : Status) (s : State) : (completeActive g st s).ev.snapshot = s.ev.snapshot :=
  snapshot_of_flags (completeActive_spec g st s).2.1.1

@[simp] theorem foldl_completeSlot_snapshot (st : Status) (ns : List SlotId) (s : State) :
    (ns.foldl (fun t n => completeSlot n st t) s).ev.snapshot = s.ev.snapshot := by
  induction ns generalizing s with
  | nil => rfl
  | cons n ns ih => exact (ih _).trans (completeSlot_snapshot n st s)

@[simp] theorem finishSlot_snapshot (g : Seg) (n : SlotId) (st : Status) (s : State) :
    (finishSlot g n st s).ev.snapshot = s.ev.snapshot := completeSlot_snapshot n st s

theorem clearFlags_snapshot (s : State) (ones : Word) : (s.clearFlags ones).ev.snapshot = s.ev.snapshot :=
  snapshot_of_flags (clearFlags_frame s ones).1

/-! ### Contexts and departures -/

@[simp] theorem endPhase_snapshot (g : Seg) (s : State) : (endPhase g s).ev.snapshot = s.ev.snapshot := by
  unfold endPhase
  dsimp only
  split
  · simp [endRemoteWrite]
  · simp [endRemoteRead, endFillRead]
  all_goals rfl

@[simp] theorem contextStart_snapshot (g : Seg) (s : State) : (contextStart g s).ev.snapshot = s.ev.snapshot := endPhase_snapshot g s

@[simp] theorem contextStop_snapshot (g : Seg) (s : State) : (contextStop g s).ev.snapshot = s.ev.snapshot := endPhase_snapshot g s

@[simp] theorem endContext_snapshot (g : Seg) (s : State) : (endContext g s).ev.snapshot = s.ev.snapshot :=
  snapshot_of_flags (endContext_spec g s).2.2.1.1

@[simp] theorem releaseLines_snapshot (g : Seg) (s : State) : (releaseLines g s).ev.snapshot = s.ev.snapshot := rfl

@[simp] theorem stopQualifier_snapshot (g : Seg) (s : State) : (stopQualifier g s).ev.snapshot = s.ev.snapshot := rfl

@[simp] theorem enterState_snapshot (g : Seg) (dest : SegState) (dm : DownMode) (s : State) :
    (enterState g dest dm s).ev.snapshot = s.ev.snapshot := rfl

theorem depart_snapshot (g : Seg) (dest : SegState) (dm : DownMode) (st : Status) (s : State) :
    (depart g dest dm st s).ev.snapshot = s.ev.snapshot := snapshot_of_flags (depart_spec g dest dm st s).1.flags.1

theorem goDark_snapshot (g : Seg) (s : State) : (goDark g s).ev.snapshot = s.ev.snapshot := depart_snapshot g _ _ _ (stopQualifier g s)

theorem enterFaulted_snapshot (g : Seg) (s : State) : (enterFaulted g s).ev.snapshot = s.ev.snapshot := depart_snapshot g _ _ _ s

@[simp] theorem settleIfPowered_snapshot (g : Seg) (s : State) : (settleIfPowered g s).ev.snapshot = s.ev.snapshot :=
  snapshot_if fun _ => rfl

theorem foldl_settleDark_snapshot (gs : List Seg) (s : State) : (gs.foldl settleDark s).ev.snapshot = s.ev.snapshot := by
  rw [foldl_settleDark_frame]

/-! ### The attempt -/

@[simp] theorem enterRecovery_snapshot (g : Seg) (s : State) : (enterRecovery g s).ev.snapshot = s.ev.snapshot := by
  rw [(enterRecovery_spec g s).2.2.2.2]

@[simp] theorem sendStart_snapshot (g : Seg) (s : State) : (sendStart g s).ev.snapshot = s.ev.snapshot :=
  contextStart_snapshot g (s.updSeg g _)

@[simp] theorem meetBus_snapshot (g : Seg) (held : Nat) (s : State) : (meetBus g held s).ev.snapshot = s.ev.snapshot := by
  simp [meetBus, startBusyTimer]

@[simp] theorem quarantine_snapshot (n : SlotId) (s : State) : (quarantine n s).ev.snapshot = s.ev.snapshot := by simp [quarantine]

@[simp] theorem recordFailure_snapshot (g : Seg) (n : SlotId) (f : Failure) (s : State) :
    (recordFailure g n f s).ev.snapshot = s.ev.snapshot := by simp [recordFailure, countFailure]

@[simp] theorem enterBackoff_snapshot (g : Seg) (n : SlotId) (s : State) : (enterBackoff g n s).ev.snapshot = s.ev.snapshot := by
  unfold enterBackoff
  split
  · exact finishSlot_snapshot g n _ s
  · rfl

@[simp] theorem enterPollWait_snapshot (g : Seg) (n : SlotId) (s : State) : (enterPollWait g n s).ev.snapshot = s.ev.snapshot := by
  unfold enterPollWait
  split
  · exact finishSlot_snapshot g n _ s
  · rfl

theorem beginAttempt_snapshot (g : Seg) (held : Nat) (s : State) : (beginAttempt g held s).ev.snapshot = s.ev.snapshot := by
  unfold beginAttempt
  split
  · rfl
  · split
    · exact finishSlot_snapshot g _ _ s
    · split
      · simp [markAbsent]
      · exact meetBus_snapshot g held (fixAttempt g _ s)

/-- The evaluation completes the slot, or leaves it to another attempt (R96). -/
theorem evaluateFailure_snapshot (g : Seg) (f : Failure) (s : State) : (evaluateFailure g f s).ev.snapshot = s.ev.snapshot := by
  unfold evaluateFailure
  split
  · rfl
  · simp [markAbsent]

theorem succeed_snapshot (g : Seg) (n : SlotId) (s : State) : (succeed g n s).ev.snapshot = s.ev.snapshot := by
  simp [succeed, comparePoll, creditTarget]

@[simp] theorem goTo_snapshot (g : Seg) (pos : BytePos) (s : State) : (goTo g pos s).ev.snapshot = s.ev.snapshot := by
  unfold goTo
  dsimp only
  split
  · exact contextStart_snapshot g (stepEngine g _ s)
  · rfl

@[simp] theorem closeByMark_snapshot (g : Seg) (n : SlotId) (st : Status) (nackOut : Bool) (s : State) :
    (closeByMark g n st nackOut s).ev.snapshot = s.ev.snapshot := completeSlot_snapshot n st s

@[simp] theorem afterAck_snapshot (g : Seg) (n : SlotId) (pos : BytePos) (s : State) : (afterAck g n pos s).ev.snapshot = s.ev.snapshot := by
  unfold afterAck
  split
  · exact goTo_snapshot g pos s
  · split
    · exact closeByMark_snapshot g n _ false s
    · exact goTo_snapshot g pos s

theorem stopRises_snapshot (g : Seg) (s : State) : (stopRises g s).ev.snapshot = s.ev.snapshot := contextStop_snapshot g (s.updSeg g _)

@[simp] theorem markTaken_snapshot (g : Seg) (s : State) : (markTaken g s).ev.snapshot = s.ev.snapshot := by
  unfold markTaken
  split
  · rfl
  · split
    · exact finishSlot_snapshot g _ _ s
    · exact finishSlot_snapshot g _ _ s
    · exact finishSlot_snapshot g _ _ s
    · rfl

end Sys2Proof.Machine
end

section
/-! SUPPORT. The rows of the wires, of the timers and of the power keep the snapshot of the time base (chapters 3 to 8). -/

namespace Sys2Proof.Machine

/-- The row of an outcome keeps the snapshot. -/
def NextKeepsSnapshot (s : State) (o : Host.Outcome State Fault Refusal) : Prop :=
  ∃ t : State, o = .next t ∧ t.ev.snapshot = s.ev.snapshot

/-! ### Remote transfers -/

theorem seeStart_snapshot (g : Seg) (s : State) : (seeStart g s).ev.snapshot = s.ev.snapshot := by simp [seeStart]

theorem seeStop_snapshot (g : Seg) (s : State) : (seeStop g s).ev.snapshot = s.ev.snapshot := by simp [seeStop]

@[simp] theorem refuseAddress_snapshot (g : Seg) (s : State) : (refuseAddress g s).ev.snapshot = s.ev.snapshot := rfl

theorem answerWrite_snapshot (g : Seg) (e : EntryId) (s : State) : (answerWrite g e s).ev.snapshot = s.ev.snapshot := by
  simp [answerWrite]

theorem answerRead_snapshot (g : Seg) (e : EntryId) (s : State) : (answerRead g e s).ev.snapshot = s.ev.snapshot := by
  unfold answerRead
  dsimp only
  split
  · rfl
  · exact refuseAddress_snapshot g s
  · simp

theorem evaluateAddress_snapshot (g : Seg) (b : Byte) (s : State) : (evaluateAddress g b s).ev.snapshot = s.ev.snapshot := by
  unfold evaluateAddress
  split
  · rfl
  · split
    · exact answerWrite_snapshot g _ s
    · exact answerRead_snapshot g _ s

theorem receiveByte_snapshot (g : Seg) (m : BoxId) (b : Byte) (s : State) : (receiveByte g m b s).ev.snapshot = s.ev.snapshot := by
  simp [receiveByte]

theorem sendByte_snapshot (g : Seg) (ack : Bool) (s : State) : (sendByte g ack s).ev.snapshot = s.ev.snapshot := by
  simp [sendByte]

theorem serveFill_snapshot (g : Seg) (s : State) : (serveFill g s).ev.snapshot = s.ev.snapshot := rfl

/-! ### The dispatch and the bytes of an attempt -/

@[simp] theorem completeHead_snapshot (g : Seg) (n : SlotId) (st : Status) (s : State) :
    (completeHead g n st s).ev.snapshot = s.ev.snapshot := completeSlot_snapshot n st (s.updSeg g _)

@[simp] theorem promote_snapshot (g : Seg) (n : SlotId) (held : Nat) (s : State) : (promote g n held s).ev.snapshot = s.ev.snapshot :=
  beginAttempt_snapshot g held ((s.updSlot n _).updSeg g _)

theorem evaluateHead_snapshot (g : Seg) (held : Nat) (n : SlotId) (s : State) : (evaluateHead g held n s).ev.snapshot = s.ev.snapshot := by
  unfold evaluateHead
  split
  · exact completeHead_snapshot g n _ s
  · simp

theorem execHeadEvaluation_snapshot (g : Seg) (held : Nat) (s : State) : NextKeepsSnapshot s (execHeadEvaluation g held s) := by
  refine ⟨_, rfl, onWire_snapshot ?_⟩
  split
  · exact evaluateHead_snapshot g held _ s
  · rfl

/-- An address byte with its acknowledge: the attempt goes on, or a mark ends it (R70, R79). -/
theorem addressByte_snapshot (g : Seg) (n : SlotId) (ack : Bool) (next : BytePos) (s : State) :
    (if ack then afterAck g n next (learnAddressAck n (contextUnaddressed g s))
      else meetFailure g .nackAddress (contextUnaddressed g s)).ev.snapshot = s.ev.snapshot := by
  simp [learnAddressAck, contextUnaddressed, meetFailure, stepEngine]

theorem execEngineAddressByte_snapshot (g : Seg) (ack : Bool) (s : State) : NextKeepsSnapshot s (execEngineAddressByte g ack s) := by
  refine ⟨_, rfl, onWire_snapshot ?_⟩
  split
  · exact addressByte_snapshot g _ ack _ s
  · exact addressByte_snapshot g _ ack _ s
  · rfl

theorem execEngineWriteByte_snapshot (g : Seg) (ack : Bool) (s : State) : NextKeepsSnapshot s (execEngineWriteByte g ack s) := by
  refine ⟨_, rfl, onWire_snapshot ?_⟩
  split
  · simp [meetFailure, stepEngine]
  · rfl

theorem execEngineReadByte_snapshot (g : Seg) (b : Byte) (s : State) : NextKeepsSnapshot s (execEngineReadByte g b s) := by
  refine ⟨_, rfl, onWire_snapshot ?_⟩
  split
  · split
    · rfl
    · split
      · exact closeByMark_snapshot g _ _ true (appendRead _ b s)
      · exact goTo_snapshot g _ (appendRead _ b s)
  · rfl

/-! ### Stops and recovery -/

theorem execClosingStop_snapshot (g : Seg) (s : State) : NextKeepsSnapshot s (execClosingStop g s) := by
  refine ⟨_, rfl, onWire_snapshot ?_⟩
  split
  · split
    · exact (evaluateFailure_snapshot g _ _).trans (stopRises_snapshot g s)
    · exact (succeed_snapshot g _ _).trans (stopRises_snapshot g s)
  · rfl

theorem execStopFailed_snapshot (g : Seg) (s : State) : NextKeepsSnapshot s (execStopFailed g s) := by
  refine ⟨_, rfl, onWire_snapshot ?_⟩
  split
  · exact enterRecovery_snapshot g s
  · exact snapshot_if fun _ => rfl

theorem execArbitrationLost_snapshot (g : Seg) (s : State) : NextKeepsSnapshot s (execArbitrationLost g s) := by
  refine ⟨_, rfl, onWire_snapshot ?_⟩
  split
  · exact evaluateFailure_snapshot g _ (sampleLow g s)
  · exact snapshot_if fun _ => rfl

theorem recovered_snapshot (g : Seg) (s : State) : (recovered g s).ev.snapshot = s.ev.snapshot := by
  unfold recovered
  dsimp only
  split
  · exact evaluateFailure_snapshot g _ (enterState g .up .none (s.updSeg g _))
  · rfl

theorem execRecoveryPulse_snapshot (g : Seg) (dataHigh : Bool) (s : State) : NextKeepsSnapshot s (execRecoveryPulse g dataHigh s) :=
  ⟨_, rfl, onWire_snapshot (snapshot_if fun _ => snapshot_if (s := s.updSeg g _) fun _ => enterFaulted_snapshot g _)⟩

theorem execRecoveryStop_snapshot (g : Seg) (rose : Bool) (s : State) : NextKeepsSnapshot s (execRecoveryStop g rose s) := by
  refine ⟨_, rfl, onWire_snapshot (snapshot_if fun _ => ?_)⟩
  split
  · exact recovered_snapshot g s
  · exact snapshot_if (s := s.updSeg g _) fun _ => enterFaulted_snapshot g _

/-! ### The lines and the power -/

theorem execLineChangeOutsideTransfer_snapshot (g : Seg) (line : Line) (high : Bool) (s : State) :
    NextKeepsSnapshot s (execLineChangeOutsideTransfer g line high s) := by
  refine ⟨_, rfl, ?_⟩
  split
  · split
    · exact seeStop_snapshot g s
    · exact seeStart_snapshot g s
  · rfl

theorem assertPower_snapshot (g : Seg) (s : State) : (assertPower g s).ev.snapshot = s.ev.snapshot := by
  unfold assertPower
  cases (s.seg g).state with
  | dark => exact settleIfPowered_snapshot g s
  | up | recovering | faulted => exact snapshot_if fun _ => rfl
  | settling | offline => rfl

theorem deassertPower_snapshot (g : Seg) (s : State) : (deassertPower g s).ev.snapshot = s.ev.snapshot := by
  unfold deassertPower
  cases (s.seg g).state with
  | settling => rfl
  | up | recovering | faulted => exact snapshot_if (s := startGlitchWatch g s) fun _ => goDark_snapshot g s
  | dark | offline => rfl

theorem execSpgAssert_snapshot (g : Seg) (s : State) : NextKeepsSnapshot s (execSpgAssert g s) := by
  refine ⟨_, rfl, ?_⟩
  split
  · rfl
  · exact onWire_snapshot (s := recordLevel g true s) (assertPower_snapshot g _)

theorem execSpgDeassert_snapshot (g : Seg) (s : State) : NextKeepsSnapshot s (execSpgDeassert g s) :=
  ⟨_, rfl, snapshot_if fun _ => onWire_snapshot (s := recordLevel g false s) (deassertPower_snapshot g _)⟩

end Sys2Proof.Machine
end

section
/-! SUPPORT. The commands, the registers, the resets and the table port keep the snapshot of the time base, and with them every row but TBLO_READ
and RST#; the statement on the reads of TBLO (R176). -/

namespace Sys2Proof.Machine

open Sys2Proof.Safety

/-! ### How a command is carried out -/

theorem record_snapshot (r : Reply) : r.record.ev.snapshot = r.state.ev.snapshot := by simp [Reply.record]

theorem runCommand_snapshot {code : BitVec 8} {f : State → Reply} (h : ∀ t : State, (f t).state.ev.snapshot = t.ev.snapshot) (s : State) :
    NextKeepsSnapshot s (.next (runCommand code f s)) :=
  ⟨_, rfl, onWindow_snapshot ((record_snapshot _).trans (h (storeCode code s)))⟩

/-- A command with a number keeps the snapshot, when it does so for each number in range. -/
theorem runNumber_snapshot {code : BitVec 8} {k : Nat} {f : Fin k → State → Reply}
    (h : ∀ (n : Fin k) (t : State), (f n t).state.ev.snapshot = t.ev.snapshot) (s : State) :
    NextKeepsSnapshot s (.next (runCommand code (withNumber k f) s)) := by
  refine runCommand_snapshot (fun t => ?_) s
  unfold withNumber
  split
  · exact h _ t
  · rfl

/-! ### The commands -/

theorem allocate_snapshot (s : State) : (allocate s).state.ev.snapshot = s.ev.snapshot := by
  unfold allocate; split <;> rfl

theorem discard_snapshot (n : SlotId) (s : State) : (discard n s).state.ev.snapshot = s.ev.snapshot := by
  unfold discard; split <;> rfl

theorem acceptPost_snapshot (n : SlotId) (g : Seg) (s : State) : (acceptPost n g s).ev.snapshot = s.ev.snapshot := by
  simp [acceptPost, latchPost]

theorem post_snapshot (n : SlotId) (s : State) : (post n s).state.ev.snapshot = s.ev.snapshot := by
  unfold post
  split
  · split
    · rfl
    · split
      · exact acceptPost_snapshot n _ s
      · rfl
  · rfl

theorem retire_snapshot (s : State) : (retire s).state.ev.snapshot = s.ev.snapshot := by
  unfold retire; split <;> rfl

/-- The mark of an ABORT may complete the slot, and does no more to the Event Unit (R53, R78). -/
theorem abort_posted_snapshot {n : SlotId} {s : State} (h : posted (s.slot n)) :
    (abort n s).state.ev.snapshot = s.ev.snapshot := by
  rw [abort_posted h]
  split
  · exact snapshot_if (s := setMark .aborted n s) fun _ => markTaken_snapshot _ _
  · rfl

theorem abort_snapshot (n : SlotId) (s : State) : (abort n s).state.ev.snapshot = s.ev.snapshot := by
  cases hstate : (s.slot n).state with
  | pending => exact abort_posted_snapshot (.inl hstate)
  | active => exact abort_posted_snapshot (.inr hstate)
  | free | staged | done => rw [abort_other (by simp [hstate])]; rfl

theorem flushSegment_snapshot (g : Seg) (s : State) : (flushSegment g s).state.ev.snapshot = s.ev.snapshot := by
  rw [flushSegment_eq]
  refine (markTaken_snapshot g (flushMarks g s)).trans ?_
  rw [flushMarks_frame]

theorem closeForOffline_snapshot (g : Seg) (e : Engine) (s : State) : (closeForOffline g e s).ev.snapshot = s.ev.snapshot := by
  unfold closeForOffline; split <;> rfl

/-- A segment in service is closed down, with its active slot and its context (R141). -/
theorem offline_snapshot (g : Seg) (s : State) : (offline g s).state.ev.snapshot = s.ev.snapshot := by
  unfold offline
  cases (s.seg g).state with
  | offline => rfl
  | up | recovering => simp [accept, closeForOffline_snapshot]
  | dark | settling | faulted => rfl

theorem online_snapshot (g : Seg) (s : State) : (online g s).state.ev.snapshot = s.ev.snapshot := by
  unfold online
  split
  · exact settleIfPowered_snapshot g (enterState g _ _ (idleEngine g (releaseLines g s)))
  · rfl

theorem clearSegment_snapshot (g : Seg) (s : State) : (clearSegment g s).ev.snapshot = s.ev.snapshot := by
  simp [clearSegment, resetList]

theorem segmentReset_snapshot (g : Seg) (s : State) : (segmentReset g s).state.ev.snapshot = s.ev.snapshot := by
  simp [segmentReset, accept, clearSegment_snapshot]

theorem readmit_snapshot (k : TargetId) (s : State) : (readmit k s).state.ev.snapshot = s.ev.snapshot := by
  unfold readmit; split <;> rfl

theorem releaseInbound_snapshot (m : BoxId) (s : State) : (releaseInbound m s).state.ev.snapshot = s.ev.snapshot := by
  unfold releaseInbound; split <;> rfl

theorem commitOutbound_snapshot (m : BoxId) (s : State) : (commitOutbound m s).state.ev.snapshot = s.ev.snapshot := by
  unfold commitOutbound
  split
  · rfl
  · split
    · dsimp only [accept]
      split <;> rfl
    · rfl

theorem cancelOutbound_snapshot (m : BoxId) (s : State) : (cancelOutbound m s).state.ev.snapshot = s.ev.snapshot := by
  unfold cancelOutbound
  split
  · rfl
  · rfl
  · split <;> rfl

/-! ### Registers and resets -/

theorem configureQueue_snapshot (s : State) (threshold : BitVec 6) (delay : Byte) :
    (s.configureQueue threshold delay).ev.snapshot = s.ev.snapshot := by
  rw [(configureQueue_configures s threshold delay).frame]

theorem writePlain_snapshot (r : PlainRegister) (v : Word) (s : State) : (writePlain r v s).ev.snapshot = s.ev.snapshot := by
  cases r <;> rfl

theorem execUndefinedWordAccess_snapshot (word : Fin 8) (a : Access) (s : State) :
    NextKeepsSnapshot s (execUndefinedWordAccess word a s) := by
  have hraised : (onWindow (fun s => s.raise .windowError) s).ev.snapshot = s.ev.snapshot := onWindow_snapshot rfl
  refine ⟨_, rfl, ?_⟩
  cases a <;> exact hraised

/-- The time base counts on, and its snapshot stands (R175, R176). -/
theorem execTimeBaseCount_snapshot (s : State) : NextKeepsSnapshot s (execTimeBaseCount s) := by
  refine ⟨_, rfl, ?_⟩
  split <;> rfl

/-- Neither end of DEVICE_RESET touches the Event Unit beyond its flags (R178). -/
theorem execDeviceReset_snapshot (s : State) : NextKeepsSnapshot s (execDeviceReset s) := ⟨_, rfl, onWindow_snapshot rfl⟩

theorem execDeviceResetEnd_snapshot (s : State) : NextKeepsSnapshot s (execDeviceResetEnd s) := by
  refine ⟨_, rfl, snapshot_if fun _ => ?_⟩
  rw [endDeviceReset_eq, foldl_settleDark_snapshot]
  rfl

/-! ### The table port -/

@[simp] theorem accepted_snapshot (st : TableStatus) (s : State) : (accepted st s).ev.snapshot = s.ev.snapshot := rfl

@[simp] theorem refused_snapshot (st : TableStatus) (s : State) : (refused st s).ev.snapshot = s.ev.snapshot := rfl

theorem execTdataRead_snapshot (s : State) : NextKeepsSnapshot s (execTdataRead s) := by
  refine ⟨_, rfl, ?_⟩
  split
  · unfold tdataRead
    split <;> rfl
  · rfl

theorem writeIdentity_snapshot (k : TargetId) (v : Word) (s : State) : (writeIdentity k v s).ev.snapshot = s.ev.snapshot := by
  unfold writeIdentity
  split
  · rfl
  · simp [storeIdentity]

theorem writeSlotField_snapshot (n : SlotId) (i : Nat) (v : Word) (s : State) : (writeSlotField n i v s).ev.snapshot = s.ev.snapshot := by
  simp [writeSlotField]

theorem tdataWrite_snapshot (v : Word) (s : State) : (tdataWrite v s).ev.snapshot = s.ev.snapshot := by
  unfold tdataWrite
  split
  · exact writeIdentity_snapshot _ v s
  · rfl
  · exact writeSlotField_snapshot _ _ v s
  -- the other words are stored as they stand, refused, or out of range
  all_goals rfl

theorem execTargetIdentityWrite_snapshot (v : Word) (s : State) : NextKeepsSnapshot s (execTargetIdentityWrite v s) := by
  refine ⟨_, rfl, onWindow_snapshot ?_⟩
  split
  · exact writeIdentity_snapshot _ v s
  · exact tdataWrite_snapshot v s

theorem execTargetPolicyWrite_snapshot (v : Word) (s : State) : NextKeepsSnapshot s (execTargetPolicyWrite v s) := by
  refine ⟨_, rfl, onWindow_snapshot ?_⟩
  split
  · rfl
  · exact tdataWrite_snapshot v s

theorem execSlotFieldWrite_snapshot (v : Word) (s : State) : NextKeepsSnapshot s (execSlotFieldWrite v s) := by
  refine ⟨_, rfl, onWindow_snapshot ?_⟩
  split
  · exact writeSlotField_snapshot _ _ v s
  · exact tdataWrite_snapshot v s

theorem execSegmentConfigWrite_snapshot (v : Word) (s : State) : NextKeepsSnapshot s (execSegmentConfigWrite v s) := by
  refine ⟨_, rfl, onWindow_snapshot ?_⟩
  split
  · rfl
  · exact tdataWrite_snapshot v s

theorem execResponderEntryWrite_snapshot (v : Word) (s : State) : NextKeepsSnapshot s (execResponderEntryWrite v s) := by
  refine ⟨_, rfl, onWindow_snapshot ?_⟩
  split
  · rfl
  · exact tdataWrite_snapshot v s

theorem execStagingBytesWrite_snapshot (v : Word) (s : State) : NextKeepsSnapshot s (execStagingBytesWrite v s) := by
  refine ⟨_, rfl, onWindow_snapshot ?_⟩
  split
  · rfl
  · exact tdataWrite_snapshot v s

theorem execReadOnlyTableWrite_snapshot (v : Word) (s : State) : NextKeepsSnapshot s (execReadOnlyTableWrite v s) := by
  refine ⟨_, rfl, onWindow_snapshot ?_⟩
  split
  · split
    · rfl
    · exact tdataWrite_snapshot v s
  · exact tdataWrite_snapshot v s

theorem execTdataWriteOutOfRange_snapshot (v : Word) (s : State) : NextKeepsSnapshot s (execTdataWriteOutOfRange v s) := by
  refine ⟨_, rfl, onWindow_snapshot ?_⟩
  split
  · rfl
  · exact tdataWrite_snapshot v s

/-! ### Every row -/

/-- A write of CMD with the code of a command. -/
theorem writeCommand_snapshot (c : Command) (s : State) : NextKeepsSnapshot s (writeCommand c s) := by
  cases c with
  | allocate => exact runCommand_snapshot allocate_snapshot s
  | discard => exact runNumber_snapshot discard_snapshot s
  | post => exact runNumber_snapshot post_snapshot s
  | abort => exact runNumber_snapshot abort_snapshot s
  | retire => exact runCommand_snapshot retire_snapshot s
  | flushSegment => exact runNumber_snapshot flushSegment_snapshot s
  | offline => exact runNumber_snapshot offline_snapshot s
  | online => exact runNumber_snapshot online_snapshot s
  | segmentReset => exact runNumber_snapshot segmentReset_snapshot s
  | readmit => exact runNumber_snapshot readmit_snapshot s
  | releaseInbound => exact runNumber_snapshot releaseInbound_snapshot s
  | commitOutbound => exact runNumber_snapshot commitOutbound_snapshot s
  | cancelOutbound => exact runNumber_snapshot cancelOutbound_snapshot s
  | deviceReset => exact execDeviceReset_snapshot s

theorem execUnknownCommand_snapshot (code : BitVec 8) (s : State) : NextKeepsSnapshot s (execUnknownCommand code s) := by
  unfold execUnknownCommand
  split
  · exact runCommand_snapshot (fun _ => rfl) s
  · exact writeCommand_snapshot _ s

/-- Every row but a read of TBLO and the two of RST# keeps the snapshot (R176). -/
theorem exec_snapshot (c : Instr) (s : State) (hread : c ≠ .tbloRead) (hassert : c ≠ .rstAssert) (hend : c ≠ .rstEnd) :
    NextKeepsSnapshot s (exec c s) := by
  cases c with
  | tbloRead => exact absurd rfl hread
  | rstAssert => exact absurd rfl hassert
  | rstEnd => exact absurd rfl hend
  | allocate => exact writeCommand_snapshot .allocate s
  | discard => exact writeCommand_snapshot .discard s
  | post => exact writeCommand_snapshot .post s
  | abort => exact writeCommand_snapshot .abort s
  | retire => exact writeCommand_snapshot .retire s
  | flushSegment => exact writeCommand_snapshot .flushSegment s
  | offline => exact writeCommand_snapshot .offline s
  | online => exact writeCommand_snapshot .online s
  | segmentReset => exact writeCommand_snapshot .segmentReset s
  | readmit => exact writeCommand_snapshot .readmit s
  | releaseInbound => exact writeCommand_snapshot .releaseInbound s
  | commitOutbound => exact writeCommand_snapshot .commitOutbound s
  | cancelOutbound => exact writeCommand_snapshot .cancelOutbound s
  | deviceReset => exact execDeviceReset_snapshot s
  | deviceResetEnd => exact execDeviceResetEnd_snapshot s
  | unknownCommand code => exact execUnknownCommand_snapshot code s
  | tdataRead => exact execTdataRead_snapshot s
  | targetIdentityWrite v => exact execTargetIdentityWrite_snapshot v s
  | targetPolicyWrite v => exact execTargetPolicyWrite_snapshot v s
  | slotFieldWrite v => exact execSlotFieldWrite_snapshot v s
  | segmentConfigWrite v => exact execSegmentConfigWrite_snapshot v s
  | responderEntryWrite v => exact execResponderEntryWrite_snapshot v s
  | stagingBytesWrite v => exact execStagingBytesWrite_snapshot v s
  | readOnlyTableWrite v => exact execReadOnlyTableWrite_snapshot v s
  | evtWrite v => exact ⟨_, rfl, onWindow_snapshot (clearFlags_snapshot s v)⟩
  | evtenWrite v => exact ⟨_, rfl, onWindow_snapshot (f := writeEvten v) rfl⟩
  | ctlWrite v => exact ⟨_, rfl, onWindow_snapshot (f := writeCtl v) rfl⟩
  | cqcfgWrite v => exact ⟨_, rfl, onWindow_snapshot (configureQueue_snapshot s _ _)⟩
  | undefinedWordAccess w a => exact execUndefinedWordAccess_snapshot w a s
  | registerWrite r v => exact ⟨_, rfl, onWindow_snapshot (writePlain_snapshot r v s)⟩
  | spgAssert g => exact execSpgAssert_snapshot g s
  | spgDeassert g => exact execSpgDeassert_snapshot g s
  | settleTimerExpiry g => exact ⟨_, rfl, onWire_snapshot (snapshot_if fun _ => rfl)⟩
  | glitchTimerExpiry g => exact ⟨_, rfl, onWire_snapshot (snapshot_if fun _ => goDark_snapshot g s)⟩
  | headEvaluation g held => exact execHeadEvaluation_snapshot g held s
  | engineStart g => exact ⟨_, rfl, onWire_snapshot (snapshot_if fun _ => sendStart_snapshot g s)⟩
  | busyTimerExpiry g => exact ⟨_, rfl, onWire_snapshot (snapshot_if fun _ => evaluateFailure_snapshot g _ s)⟩
  | stuckDetected g => exact ⟨_, rfl, onWire_snapshot (snapshot_if fun _ => enterRecovery_snapshot g s)⟩
  | engineAddressByte g ack => exact execEngineAddressByte_snapshot g ack s
  | engineWriteByte g ack => exact execEngineWriteByte_snapshot g ack s
  | engineReadByte g b => exact execEngineReadByte_snapshot g b s
  | closingStop g => exact execClosingStop_snapshot g s
  | stopFailed g => exact execStopFailed_snapshot g s
  | markCloseStop g => exact ⟨_, rfl, onWire_snapshot (snapshot_if fun _ => stopRises_snapshot g s)⟩
  | offlineCloseStop g => exact ⟨_, rfl, onWire_snapshot (snapshot_if fun _ => rfl)⟩
  | arbitrationLost g => exact execArbitrationLost_snapshot g s
  | stretchTimerExpiry g => exact ⟨_, rfl, onWire_snapshot (snapshot_if fun _ => rfl)⟩
  | clockReleased g => exact ⟨_, rfl, onWire_snapshot (snapshot_if fun _ => rfl)⟩
  | releaseTimerExpiry g => exact ⟨_, rfl, onWire_snapshot (snapshot_if fun _ => enterFaulted_snapshot g (s.updSeg g _))⟩
  | recoveryPulse g dataHigh => exact execRecoveryPulse_snapshot g dataHigh s
  | recoveryStop g rose => exact execRecoveryStop_snapshot g rose s
  | backoffTimerExpiry g held => exact ⟨_, rfl, onWire_snapshot (snapshot_if fun _ => beginAttempt_snapshot g held s)⟩
  | pollTimerExpiry g held => exact ⟨_, rfl, onWire_snapshot (snapshot_if fun _ => beginAttempt_snapshot g held s)⟩
  | coalescingTimerExpiry => exact ⟨_, rfl, onWire_snapshot (snapshot_if fun _ => rfl)⟩
  | remoteStart g => exact ⟨_, rfl, onWire_snapshot (seeStart_snapshot g s)⟩
  | remoteAddressByte g b => exact ⟨_, rfl, onWire_snapshot (snapshot_if fun _ => evaluateAddress_snapshot g b s)⟩
  | remoteWriteByte g b => exact ⟨_, rfl, onWire_snapshot (snapshot_if fun _ => receiveByte_snapshot g _ b s)⟩
  | remoteReadByte g ack => exact ⟨_, rfl, onWire_snapshot (snapshot_if fun _ => sendByte_snapshot g ack s)⟩
  | remoteStop g => exact ⟨_, rfl, onWire_snapshot (seeStop_snapshot g s)⟩
  | remoteRepeatedStart g => exact ⟨_, rfl, onWire_snapshot (seeStart_snapshot g s)⟩
  | holdTimerExpiry g => exact ⟨_, rfl, onWire_snapshot (snapshot_if fun _ => serveFill_snapshot g s)⟩
  | lineChangeOutsideTransfer g line high => exact execLineChangeOutsideTransfer_snapshot g line high s
  | timeBaseCount => exact execTimeBaseCount_snapshot s
  | tdataWriteOutOfRange v => exact execTdataWriteOutOfRange_snapshot v s

/-! ### Reads of TBLO and of TBHI -/

/-- With the window open a register shows its word (R188, R189). -/
theorem readRegister_open {s : State} (ho : s.windowOpen = true) (r : Register) : s.readRegister r = s.registerWord r := by
  obtain ⟨hrst, hbusy⟩ := (windowOpen_iff s).mp ho
  simp [State.readRegister, hrst, hbusy]

/-- RST# leaves the snapshot 0, while it is held and at its end (R177). -/
theorem rst_snapshot {c : Instr} {s : State} (h : c = .rstAssert ∨ (c = .rstEnd ∧ s.rstHeld = true)) :
    ∃ t : State, exec c s = .next t ∧ t.ev.snapshot = 0 := by
  obtain rfl | ⟨rfl, hheld⟩ := h
  · exact ⟨_, rfl, rfl⟩
  · exact ⟨_, congrArg Host.Outcome.next (if_pos hheld), foldl_settleDark_snapshot allSegs (rstValues false s)⟩

/-- Settles O38: TBLO_READ alone captures, RST# clears, and every other row keeps the snapshot. -/
theorem timeBaseReadsTakeASnapshot : Obligations.TimeBaseReadsTakeASnapshot := by
  refine ⟨fun s ho => ⟨readTblo s, congrArg Host.Outcome.next (if_pos ho), rfl, readRegister_open (s := readTblo s) ho .tbHi, rfl⟩,
    fun s ho => readRegister_open ho .tbHi, fun s hbusy => ?_, fun c s t hread hassert hend h => ?_, fun c s t hrst h => ?_⟩
  · have hclosed : ¬ s.windowOpen = true := by simp [windowOpen_iff, hbusy]
    exact congrArg Host.Outcome.next (if_neg hclosed)
  · obtain ⟨u, hu, hkeeps⟩ := exec_snapshot c s hread hassert hend
    cases hu.symm.trans h
    exact hkeeps
  · obtain ⟨u, hu, hzero⟩ := rst_snapshot hrst
    cases hu.symm.trans h
    exact hzero

end Sys2Proof.Machine
end

section
/-! SUPPORT. The step of the block and the resets of the window: which rows the resets close, the begin and the end of DEVICE_RESET, and the commands
that are refused for their code or their number. -/

namespace Sys2Proof.Machine

open Sys2Proof.Claims

/-! ### The step -/

/-- Settles O1: both clauses are the two cases of the queue. -/
theorem stepTakesTheFrontCommand : Obligations.StepTakesTheFrontCommand :=
  ⟨fun _ _ _ => rfl, fun s hidle => by rw [step, hidle]⟩

/-! ### The rows that a reset closes -/

theorem windowOpen_of_reset {s : State} (h : s.win.resetBusy = true ∨ s.rstHeld = true) : s.windowOpen = false := by
  obtain h | h := h <;> simp [State.windowOpen, h]

/-- While a reset is under way a write of the window changes nothing (R188, R189). -/
theorem onWindow_closed {f : State → State} {s : State} (h : s.windowOpen = false) : onWindow f s = s := by
  simp [onWindow, h]

/-- A write of CMD with the code of a command is a write of the window. -/
theorem writeCommand_onWindow (c : Command) (s : State) : ∃ f : State → State, writeCommand c s = .next (onWindow f s) := by
  cases c <;> exact ⟨_, rfl⟩

/-- A write of CMD with any code is a write of the window (R182). -/
theorem execUnknownCommand_onWindow (code : BitVec 8) (s : State) :
    ∃ f : State → State, execUnknownCommand code s = .next (onWindow f s) := by
  unfold execUnknownCommand
  split
  · exact ⟨_, rfl⟩
  · exact writeCommand_onWindow _ s

/-- Every row that is a write of the window acts only while the window is open. -/
theorem exec_windowWrite {c : Instr} (s : State) (h : windowWrite c = true) : ∃ f : State → State, exec c s = .next (onWindow f s) := by
  cases c with
  | allocate | discard | post | abort | retire | flushSegment | offline | online | segmentReset | readmit | releaseInbound
  | commitOutbound | cancelOutbound | deviceReset => exact ⟨_, rfl⟩
  | unknownCommand code => exact execUnknownCommand_onWindow code s
  | targetIdentityWrite v | targetPolicyWrite v | slotFieldWrite v | segmentConfigWrite v | responderEntryWrite v | stagingBytesWrite v
  | readOnlyTableWrite v | tdataWriteOutOfRange v => exact ⟨_, exec_tdataWrite (v := v) s (by simp)⟩
  | evtWrite v | evtenWrite v | ctlWrite v | cqcfgWrite v | registerWrite r v => exact ⟨_, rfl⟩
  | undefinedWordAccess w a =>
    cases a with
    | read => exact nomatch h
    | write v => exact ⟨fun s => s.raise .windowError, rfl⟩
  | _ => exact nomatch h

/-- Every row that is an event of the dispatch, an engine, the Responder or one of their timers is taken only while no reset is under way. -/
theorem exec_segmentEvent {c : Instr} (s : State) (h : segmentEvent c = true) : ∃ f : State → State, exec c s = .next (onWire f s) := by
  cases c with
  | settleTimerExpiry g | glitchTimerExpiry g | headEvaluation g held | engineStart g | busyTimerExpiry g | stuckDetected g
  | engineAddressByte g ack | engineWriteByte g ack | engineReadByte g b | closingStop g | stopFailed g | markCloseStop g
  | offlineCloseStop g | arbitrationLost g | stretchTimerExpiry g | clockReleased g | releaseTimerExpiry g | recoveryPulse g high
  | recoveryStop g rose | backoffTimerExpiry g held | pollTimerExpiry g held | coalescingTimerExpiry | remoteStart g
  | remoteAddressByte g b | remoteWriteByte g b | remoteReadByte g ack | remoteStop g | remoteRepeatedStart g
  | holdTimerExpiry g => exact ⟨_, rfl⟩
  | _ => exact nomatch h

/-- With the window closed a read with an effect of its own puts 0 on the data lines (R188, R189). -/
theorem exec_windowRead_closed {c : Instr} {s : State} (h : windowRead c = true) (hclosed : s.windowOpen = false) :
    exec c s = .next { s with win := { s.win with readData := 0 } } := by
  have hnot : ¬ s.windowOpen = true := by simp [hclosed]
  cases c with
  | tdataRead | tbloRead => exact congrArg Host.Outcome.next (if_neg hnot)
  | undefinedWordAccess w a =>
    cases a with
    | read => exact congrArg (fun t => Host.Outcome.next (undefinedData .read t)) (onWindow_closed hclosed)
    | write v => exact nomatch h
  | _ => exact nomatch h

/-- Settles O2: a write goes through the window and an event through the wires, and a reset closes both. -/
theorem resetsCloseTheWindow : Obligations.ResetsCloseTheWindow := by
  intro c s hreset
  have hclosed := windowOpen_of_reset hreset
  refine ⟨fun h => ?_, fun h => exec_windowRead_closed h hclosed⟩
  obtain hwrite | hevent := h
  · obtain ⟨f, hf⟩ := exec_windowWrite s hwrite
    rw [hf, onWindow_closed hclosed]
  · obtain ⟨f, hf⟩ := exec_segmentEvent s hevent
    rw [hf, onWire_not_live hclosed]

/-! ### Commands refused for their code or their number -/

/-- A command whose number is out of range (R182). -/
theorem exec_badNumber {i : Instr} {code : BitVec 8} {k : Nat} {f : Fin k → State → Reply} {s : State}
    (hexec : exec i s = .next (runCommand code (withNumber k f) s)) (ho : s.windowOpen = true) (hn : k ≤ s.argNumber) :
    ∃ t : State, exec i s = .next t ∧ RefusedWith s t code .badArgument 0 :=
  ⟨_, hexec, runCommand_refused ho (withNumber_none hn) (by decide)⟩

/-- A code outside the table of section 10.3 names no command. -/
theorem ofCode_none {code : BitVec 8} (h : code ∉ commandCodes) : Command.ofCode code = none := by
  have hcodes : commandCodes = Command.all.map Command.code := rfl
  rw [hcodes, List.mem_map] at h
  exact List.find?_eq_none.mpr fun c hc heq => h ⟨c, hc, beq_iff_eq.mp heq⟩

/-- Settles O12: each numbered command checks its number first, and a write of CMD its code. -/
theorem badCodesAndNumbersAreRefused : Obligations.BadCodesAndNumbersAreRefused := by
  refine ⟨fun i code k s hi ho hn => ?_, by decide, fun s code ho hcode => ⟨_, ?_,
    runCommand_refused (f := fun t => refuse t .unknownCommand 0) ho rfl (by decide)⟩⟩
  · simp only [numbered, List.mem_cons, Prod.mk.injEq, List.not_mem_nil, or_false] at hi
    obtain ⟨rfl, rfl, rfl⟩ | ⟨rfl, rfl, rfl⟩ | ⟨rfl, rfl, rfl⟩ | ⟨rfl, rfl, rfl⟩ | ⟨rfl, rfl, rfl⟩ | ⟨rfl, rfl, rfl⟩ | ⟨rfl, rfl, rfl⟩ |
      ⟨rfl, rfl, rfl⟩ | ⟨rfl, rfl, rfl⟩ | ⟨rfl, rfl, rfl⟩ | ⟨rfl, rfl, rfl⟩ := hi
    all_goals exact exec_badNumber rfl ho hn
  · rw [exec, execUnknownCommand, ofCode_none hcode]

/-! ### DEVICE_RESET -/

/-- A segment as the begin of DEVICE_RESET leaves it, with the engine's case as R91 states it. -/
theorem beginReset_eq (x : Segment) :
    x.beginReset =
      let kept : Segment := { x with settleTimer := none, glitchTimer := none, ctx := { phase := .listen } }
      if HoldsBus x.engine ∧ ¬ ClockHeld x.engine ∧ x.engine.state ≠ .recovery then
        { kept with engine := closingEngine x.engine .deviceReset false }
      else { kept with gate := .released, known := false, engine := {} } := by
  refine if_congr ?_ rfl rfl
  rw [Bool.and_eq_true, Bool.and_eq_true, holdsBus_iff, Bool.not_eq_true', Bool.eq_false_iff, ne_eq, clockHeld_iff,
    decide_eq_true_eq, and_assoc]

/-- Settles O25: every segment is left as R91 states, and with every flag clear INT# is released. -/
theorem deviceResetBegins : Obligations.DeviceResetBegins := by
  intro s ho
  refine ⟨_, congrArg Host.Outcome.next (onWindow_open _ ho), fun g => ?_, ?_, rfl⟩
  · exact (mapAll_getElem Segment.beginReset s.segs g).trans (beginReset_eq (s.seg g))
  · simp [State.intAsserted, beginDeviceReset]

/-- A segment as the end of DEVICE_RESET leaves it before its power is looked at (R149). -/
def Segment.cleared (x : Segment) : Segment :=
  { outOfService x x.state x.downMode with settleTimer := none, glitchTimer := none, glitchCount := 0, list := [] }

theorem endReset_eq (x : Segment) :
    x.endReset =
      if x.state = .offline then x.cleared else { x.cleared with state := .dark, downMode := latchedMode x.config.lossPolicy } := by
  refine if_congr Iff.rfl rfl ?_
  cases h : x.config.lossPolicy <;> rfl

/-- Only a segment that was not OFFLINE is DARK at the end of DEVICE_RESET. -/
theorem endReset_powered (x : Segment) : x.endReset.Powered ↔ x.state ≠ .offline ∧ x.spg = true := by
  rw [endReset_eq]
  split
  · rename_i hoff
    exact iff_of_false (fun h => nomatch hoff.symm.trans h.1) fun h => h.1 hoff
  · rename_i hon
    exact and_congr_left' (iff_of_true rfl hon)

theorem endReset_settled (x : Segment) :
    x.endReset.settled =
      if x.state = .offline then x.cleared
      else
        let dark : Segment := { x.cleared with state := .dark, downMode := latchedMode x.config.lossPolicy }
        if x.spg then settling dark else dark := by
  rw [endReset_eq]
  by_cases hoff : x.state = .offline
  · rw [if_pos hoff, if_pos hoff]
    exact if_neg fun h => absurd (hoff.symm.trans h.1) (by decide)
  · rw [if_neg hoff, if_neg hoff]
    exact if_congr (and_iff_right rfl) rfl rfl

/-- The segments that requalify change no more than the flags and the segments of what the end of the reset leaves. -/
theorem endDeviceReset_frame (s : State) :
    endDeviceReset s =
      { deviceResetValues s with
        ev := { (deviceResetValues s).ev with flags := (endDeviceReset s).ev.flags }, segs := (endDeviceReset s).segs } := by
  rw [endDeviceReset_eq]
  exact foldl_settleDark_frame allSegs (deviceResetValues s)

theorem endDeviceReset_seg (s : State) (g : Seg) : (endDeviceReset s).seg g = (s.seg g).endReset.settled := by
  rw [endDeviceReset_eq, foldl_settleDark_seg, if_pos (mem_allSegs g), deviceResetValues_seg]

theorem endDeviceReset_flag (s : State) (e : EventFlag) :
    (endDeviceReset s).flag e = true ↔ ∃ g : Seg, e = .segChange g ∧ (s.seg g).state ≠ .offline ∧ (s.seg g).spg = true := by
  have hclear : (deviceResetValues s).flag e = false := BitVec.getLsbD_zero
  simp only [endDeviceReset_eq, foldl_settleDark_flag, hclear, Bool.false_eq_true, false_or, mem_allSegs, true_and, deviceResetValues_seg,
    endReset_powered]

/-- Settles O26: the blocks take their values, and then the DARK segments with power enter SETTLING. -/
theorem deviceResetEnds : Obligations.DeviceResetEnds := by
  intro s hbusy hrst
  have hseg := endDeviceReset_seg s
  have hflag := endDeviceReset_flag s
  have hframe := endDeviceReset_frame s
  refine ⟨endDeviceReset s, congrArg Host.Outcome.next (if_pos ⟨hbusy, hrst⟩), ?_⟩
  generalize endDeviceReset s = t at hseg hflag hframe ⊢
  have hfield := fun {α : Type} (p : State → α) => congrArg p hframe
  refine ⟨hfield State.win, fun n => ?_, fun k => ?_, fun m => ?_, hfield State.cq, fun g => ?_, hflag, ?_⟩
  · exact (hfield fun u => u.slot n).trans (replicate_getElem _ n)
  · exact (hfield fun u => u.target k).trans (deviceResetValues_target s k)
  · exact (hfield fun u => u.box m).trans (replicate_getElem _ m)
  · rw [hseg, endReset_settled]
    rfl
  · exact state_ext rfl (hfield State.ev) rfl rfl rfl rfl (hfield State.entries) rfl (hfield State.rstHeld) (hfield State.pending)

end Sys2Proof.Machine
end

section
/-! SUPPORT. The table port: the words of the seven tables, which of them an access selects, and the accesses that store nothing (section 10.4). -/

namespace Sys2Proof.Machine

open Sys2Proof.Claims

/-! ### The words of the tables -/

/-- The word of a table at an index of one of its rows (section 10.4). -/
inductive WordAt : Nat → Nat → Nat → TableWord → Prop where
  | identity (k : TargetId) : WordAt 0 k.val 0 (.identity k)
  | policy (k : TargetId) : WordAt 0 k.val 1 (.policy k)
  | targetStatus (k : TargetId) {w : Nat} (low : 2 ≤ w) (high : w ≤ 3) : WordAt 0 k.val w (.targetStatus k w)
  | slotStatus (n : SlotId) : WordAt 1 n.val 0 (.slotStatus n)
  | slotField (n : SlotId) {w : Nat} (low : 1 ≤ w) (high : w ≤ 20) : WordAt 1 n.val w (.slotField n w)
  | record {w : Nat} (high : w ≤ 22) : WordAt 2 0 w (.record w)
  | config (g : Seg) {w : Nat} (high : w ≤ 2) : WordAt 3 g.val w (.config g w)
  | glitchCount (g : Seg) : WordAt 3 g.val 3 (.glitchCount g)
  | responder (e : EntryId) {w : Nat} (high : w ≤ 1) : WordAt 4 e.val w (.responder e w)
  | inbound (m : BoxId) {w : Nat} (high : w ≤ 16) : WordAt 5 m.val w (.inbound m w)
  | outboundStatus (m : BoxId) : WordAt 6 m.val 0 (.outboundStatus m)
  | staging (m : BoxId) {w : Nat} (low : 1 ≤ w) (high : w ≤ 16) : WordAt 6 m.val w (.staging m w)

/-- The word at an index is the one that the port selects there. -/
theorem tableWord_of_wordAt {id i w : Nat} {x : TableWord} (h : WordAt id i w x) : tableWord id i w = some x := by
  cases h with
  | identity k => exact tableWord_identity k
  | policy k => exact tableWord_policy k
  | targetStatus k low high => simp [tableWord, instanceOf_val, show w ≠ 0 by omega, show w ≠ 1 by omega, show w < 4 by omega]
  | slotStatus n => simp [tableWord, instanceOf_val]
  | slotField n low high => simp [tableWord, instanceOf_val, show w ≠ 0 by omega, show w < 21 by omega]
  | record high => simp [tableWord, show w < 23 by omega]
  | config g high => exact tableWord_config g high
  | glitchCount g => simp [tableWord, instanceOf_val]
  | responder e high => exact tableWord_responder e high
  | inbound m high => simp [tableWord, instanceOf_val, show w < 17 by omega]
  | outboundStatus m => simp [tableWord, instanceOf_val]
  | staging m low high => exact tableWord_staging m low high

/-- Within the size of a table every index of every row holds a word. -/
theorem wordAt_of_inside {id i w : Nat} (hi : i < (tableSize id).1) (hw : w < (tableSize id).2) : ∃ x : TableWord, WordAt id i w x := by
  match id with
  | 0 =>
    have hw4 : w < 4 := hw
    rcases (by omega : w = 0 ∨ w = 1 ∨ (2 ≤ w ∧ w ≤ 3)) with rfl | rfl | ⟨low, high⟩
    · exact ⟨_, .identity ⟨i, hi⟩⟩
    · exact ⟨_, .policy ⟨i, hi⟩⟩
    · exact ⟨_, .targetStatus ⟨i, hi⟩ low high⟩
  | 1 =>
    rcases Nat.eq_zero_or_pos w with rfl | hpos
    · exact ⟨_, .slotStatus ⟨i, hi⟩⟩
    · exact ⟨_, .slotField ⟨i, hi⟩ hpos (Nat.le_of_lt_succ hw)⟩
  | 2 =>
    obtain rfl : i = 0 := Nat.lt_one_iff.mp hi
    exact ⟨_, .record (Nat.le_of_lt_succ hw)⟩
  | 3 =>
    rcases Nat.lt_succ_iff_lt_or_eq.mp hw with hlow | rfl
    · exact ⟨_, .config ⟨i, hi⟩ (Nat.le_of_lt_succ hlow)⟩
    · exact ⟨_, .glitchCount ⟨i, hi⟩⟩
  | 4 => exact ⟨_, .responder ⟨i, hi⟩ (Nat.le_of_lt_succ hw)⟩
  | 5 => exact ⟨_, .inbound ⟨i, hi⟩ (Nat.le_of_lt_succ hw)⟩
  | 6 =>
    rcases Nat.eq_zero_or_pos w with rfl | hpos
    · exact ⟨_, .outboundStatus ⟨i, hi⟩⟩
    · exact ⟨_, .staging ⟨i, hi⟩ hpos (Nat.le_of_lt_succ hw)⟩
  | _ + 7 => exact absurd hi (Nat.not_lt_zero i)

/-- A row beyond the last of a table holds no word, and a row holds none at an index where no row does. -/
theorem instanceOf_bind_eq_none {k i : Nat} {f : Fin k → Option TableWord} (h : k ≤ i ∨ ∀ n, f n = none) :
    (instanceOf k i).bind f = none := by
  unfold instanceOf
  split
  · rename_i hlt
    exact h.resolve_left (Nat.not_le.mpr hlt) _
  · rfl

/-- Outside the size of a table no word is selected (R185). -/
theorem tableWord_outside {id i w : Nat} (h : (tableSize id).1 ≤ i ∨ (tableSize id).2 ≤ w) : tableWord id i w = none := by
  match id with
  | 0 => exact instanceOf_bind_eq_none (h.imp_right fun (hw : 4 ≤ w) k => by rw [if_neg (by omega), if_neg (by omega), if_neg (by omega)])
  | 1 => exact instanceOf_bind_eq_none (h.imp_right fun (hw : 21 ≤ w) n => by rw [if_neg (by omega), if_neg (by omega)])
  | 2 => exact if_neg fun hin => by obtain (hi : 1 ≤ i) | (hw : 23 ≤ w) := h <;> omega
  | 3 => exact instanceOf_bind_eq_none (h.imp_right fun (hw : 4 ≤ w) g => by rw [if_neg (by omega), if_neg (by omega)])
  | 4 => exact instanceOf_bind_eq_none (h.imp_right fun (hw : 2 ≤ w) e => if_neg (Nat.not_lt.mpr hw))
  | 5 => exact instanceOf_bind_eq_none (h.imp_right fun (hw : 17 ≤ w) m => if_neg (Nat.not_lt.mpr hw))
  | 6 => exact instanceOf_bind_eq_none (h.imp_right fun (hw : 17 ≤ w) m => by rw [if_neg (by omega), if_neg (by omega)])
  | _ + 7 => rfl

/-! ### The word that an access selects -/

theorem selected_of_outside {s : State} (h : SelectsNothing s) : s.selected = none := tableWord_outside h

/-- An access in range selects the word at its index. -/
theorem selected_of_inside {s : State} (h : ¬ SelectsNothing s) :
    ∃ x : TableWord, WordAt s.win.tselTable.toNat s.win.tselInstance.toNat s.win.tidxIndex.toNat x ∧ s.selected = some x := by
  obtain ⟨hi, hw⟩ := not_or.mp h
  obtain ⟨x, hx⟩ := wordAt_of_inside (Nat.lt_of_not_le hi) (Nat.lt_of_not_le hw)
  exact ⟨x, hx, tableWord_of_wordAt hx⟩

/-- The words that the host never writes, by table and index (section 10.4). -/
theorem readOnly_of_wordAt {id i w : Nat} {x : TableWord} (hx : WordAt id i w x)
    (h : (id = 0 ∧ 2 ≤ w) ∨ (id = 1 ∧ w = 0) ∨ id = 2 ∨ (id = 3 ∧ w = 3) ∨ id = 5 ∨ (id = 6 ∧ w = 0)) : x.readOnly = true := by
  cases hx with
  | targetStatus | slotStatus | record | glitchCount | inbound | outboundStatus => rfl
  | identity | policy | slotField | config | responder | staging => omega

theorem selected_of_readOnly {s : State} (h : SelectsReadOnly s) : ∃ x : TableWord, s.selected = some x ∧ x.readOnly = true := by
  obtain ⟨x, hx, hsel⟩ := selected_of_inside h.1
  exact ⟨x, hsel, readOnly_of_wordAt hx h.2⟩

/-! ### Reads and refused writes -/

/-- A read in range shows OK but for the head record of an empty queue (R117, R184). -/
theorem readStatus_of_wordAt {s : State} {id i w : Nat} {x : TableWord} (hx : WordAt id i w x) (h : id ≠ 2 ∨ s.cq.queue ≠ []) :
    s.readStatus x = .ok := by
  cases hx with
  | record => exact if_neg (by simpa using h)
  | _ => rfl

/-- A word of the head record of an empty queue is 0 and shows EMPTY (R117). -/
theorem emptyRecord_of_wordAt {s : State} {id i w : Nat} {x : TableWord} (hx : WordAt id i w x) (hid : id = 2)
    (hempty : s.cq.queue = []) :
    s.readStatus x = .empty ∧ s.tableValue x = 0 := by
  cases hx with
  | record => simp [State.readStatus, State.tableValue, hempty]
  | _ => exact nomatch hid

theorem exec_tdataRead_selected {s : State} {x : TableWord} (ho : s.windowOpen = true) (hx : s.selected = some x) :
    exec .tdataRead s = .next (putData (s.tableValue x) (accepted (s.readStatus x) s)) :=
  congrArg Host.Outcome.next ((if_pos ho).trans (by rw [tdataRead, hx]))

theorem exec_tdataRead_outside {s : State} (ho : s.windowOpen = true) (hx : s.selected = none) :
    exec .tdataRead s = .next (putData 0 (outOfRange s)) :=
  congrArg Host.Outcome.next ((if_pos ho).trans (by rw [tdataRead, hx]))

theorem exec_readOnlyTableWrite {s : State} {x : TableWord} (v : Word) (ho : s.windowOpen = true) (hx : s.selected = some x)
    (hread : x.readOnly = true) : exec (.readOnlyTableWrite v) s = .next (writeReadOnly s) := by
  refine congrArg Host.Outcome.next ((onWindow_open _ ho).trans ?_)
  simp only [hx, hread, if_true]

/-- Settles O28: the word at the index is returned, and a read-only word refuses the write. -/
theorem tableReadsAndReadOnlyWords : Obligations.TableReadsAndReadOnlyWords := by
  refine ⟨fun s ho hin => ?_, fun s v ho hread => ?_⟩
  · obtain ⟨x, hx, hsel⟩ := selected_of_inside hin
    refine ⟨fun h => ⟨_, x, exec_tdataRead_selected ho hsel, hsel, ?_⟩, fun hid hempty => ?_⟩
    · rw [readStatus_of_wordAt hx h]
      rfl
    · obtain ⟨hstatus, hvalue⟩ := emptyRecord_of_wordAt hx hid hempty
      rw [exec_tdataRead_selected ho hsel, hstatus, hvalue]
      rfl
  · obtain ⟨x, hsel, hx⟩ := selected_of_readOnly hread
    exact ⟨_, exec_readOnlyTableWrite v ho hsel hx, refused_spec .readOnly s⟩

/-! ### Accesses out of range and at undefined offsets -/

theorem exec_tdataWriteOutOfRange {s : State} (v : Word) (ho : s.windowOpen = true) (hx : s.selected = none) :
    exec (.tdataWriteOutOfRange v) s = .next (outOfRange s) := by
  refine congrArg Host.Outcome.next ((onWindow_open _ ho).trans ?_)
  simp only [hx]

/-- Settles O33: outside the tables nothing is selected, and both accesses are out of range. -/
theorem outOfRangeAccesses : Obligations.OutOfRangeAccesses := by
  intro s v ho hout
  have hnone := selected_of_outside hout
  have hraised : Raises s (outOfRange s) [.tableError] := raises_congr (raises_raise (setStatus .range s) .tableError) rfl rfl
  exact ⟨⟨_, exec_tdataRead_outside ho hnone, rfl, raises_congr hraised rfl rfl, rfl⟩,
    _, exec_tdataWriteOutOfRange v ho hnone, rfl, hraised, rfl⟩

/-- An access at an undefined offset with the window open (R180). -/
theorem exec_undefinedWordAccess_open {s : State} (w : Fin 8) (a : Access) (ho : s.windowOpen = true) :
    exec (.undefinedWordAccess w a) s = .next (undefinedData a (s.raise .windowError)) :=
  congrArg (fun t => Host.Outcome.next (undefinedData a t)) (onWindow_open _ ho)

/-- Settles O39: the access sets its flag while the window is open, and only a read puts a word on the lines. -/
theorem undefinedWordsSetWindowError : Obligations.UndefinedWordsSetWindowError := by
  have hraised : ∀ s : State, Raises s (s.raise .windowError) [.windowError] := fun s => raises_raise s .windowError
  refine ⟨fun s w ho => ⟨_, exec_undefinedWordAccess_open w .read ho, raises_congr (hraised s) rfl rfl, rfl⟩,
    fun s w v ho => ⟨_, exec_undefinedWordAccess_open w (.write v) ho, hraised s, rfl⟩, fun s w v hbusy => ?_⟩
  have hclosed : onWindow (fun s => s.raise .windowError) s = s := if_neg (by simp [windowOpen_iff, hbusy])
  exact ⟨congrArg (fun t => Host.Outcome.next (undefinedData .read t)) hclosed, congrArg Host.Outcome.next hclosed⟩

end Sys2Proof.Machine
end

section
/-! SUPPORT. The words of the window and of the tables: that every field fits its bits, the layout of each word, and the values after RST#
(sections 10.2 and 10.4). -/

namespace Sys2Proof.Machine

open Sys2Proof.Safety Sys2Proof.Claims

/-! ### Words built of fields -/

/-- Fields that stand in the order of their bits, from a lowest bit on, apart from each other and within a word. -/
def inOrder : Nat → List (Nat × Nat × Nat) → Bool
  | low, [] => Nat.ble low 16
  | low, f :: fs => Nat.ble low f.1 && inOrder (f.1 + f.2.1) fs

/-- Fields that are each wide enough for their value. -/
inductive Fit : List (Nat × Nat × Nat) → Prop where
  | nil : Fit []
  | cons {start width value : Nat} {fs : List (Nat × Nat × Nat)} (fits : value < 2 ^ width) (rest : Fit fs) :
      Fit ((start, width, value) :: fs)

theorem Fit.field {fs : List (Nat × Nat × Nat)} (h : Fit fs) : ∀ f ∈ fs, f.2.2 < 2 ^ f.2.1 := by
  induction h with
  | nil => simp
  | cons fits _ ih => exact List.forall_mem_cons.mpr ⟨fits, ih⟩

theorem inOrder_cons {low : Nat} {f : Nat × Nat × Nat} {fs : List (Nat × Nat × Nat)} :
    inOrder low (f :: fs) = true ↔ low ≤ f.1 ∧ inOrder (f.1 + f.2.1) fs = true := by
  rw [inOrder, Bool.and_eq_true, Nat.ble_eq]

theorem inOrder_low {low : Nat} {fs : List (Nat × Nat × Nat)} (h : inOrder low fs = true) : low ≤ 16 := by
  induction fs generalizing low with
  | nil => exact Nat.le_of_ble_eq_true h
  | cons f fs ih =>
    obtain ⟨hlow, hrest⟩ := inOrder_cons.mp h
    have := ih hrest
    omega

theorem inOrder_field {low : Nat} {fs : List (Nat × Nat × Nat)} (h : inOrder low fs = true) :
    ∀ f ∈ fs, low ≤ f.1 ∧ f.1 + f.2.1 ≤ 16 := by
  induction fs generalizing low with
  | nil => simp
  | cons e fs ih =>
    obtain ⟨hlow, hrest⟩ := inOrder_cons.mp h
    refine List.forall_mem_cons.mpr ⟨⟨hlow, inOrder_low hrest⟩, fun f hf => ?_⟩
    obtain ⟨hstart, hend⟩ := ih hrest f hf
    exact ⟨by omega, hend⟩

theorem inOrder_apart {low : Nat} {fs : List (Nat × Nat × Nat)} (h : inOrder low fs = true) :
    ∀ f ∈ fs, ∀ e ∈ fs, e = f ∨ f.1 + f.2.1 ≤ e.1 ∨ e.1 + e.2.1 ≤ f.1 := by
  induction fs generalizing low with
  | nil => simp
  | cons d fs ih =>
    have hrest := (inOrder_cons.mp h).2
    intro f hf e he
    obtain rfl | hf' := List.mem_cons.mp hf
    · obtain rfl | he' := List.mem_cons.mp he
      · exact .inl rfl
      · exact .inr (.inl (inOrder_field hrest e he').1)
    · obtain rfl | he' := List.mem_cons.mp he
      · exact .inr (.inr (inOrder_field hrest f hf').1)
      · exact ih hrest f hf' e he'

/-- A word that is built of fields in order shows them, each of which fits. -/
theorem fields_of_inOrder {w : Word} {fs : List (Nat × Nat × Nat)} (horder : inOrder 0 fs = true) (hfit : Fit fs) (hw : w = placed fs) :
    Fields w fs := by
  rw [hw]
  exact fields_placed fs (fun f hf => (inOrder_field horder f hf).2) hfit.field (inOrder_apart horder)

theorem flagBit_eq (b : Bool) : flagBit b = bit b := rfl

/-! ### The values fit their bits -/

theorem bit_lt_two (b : Bool) : bit b < 2 ^ 1 := by cases b <;> decide

theorem SegState.code_lt (x : SegState) : x.code < 2 ^ 3 := by cases x <;> decide

theorem EngineState.code_lt (x : EngineState) : x.code < 2 ^ 3 := by cases x <;> decide

theorem DownMode.code_lt (x : DownMode) : x.code < 2 ^ 2 := by cases x <;> decide

theorem InboundState.code_lt (x : InboundState) : x.code < 2 ^ 2 := by cases x <;> decide

theorem OutboundState.code_lt (x : OutboundState) : x.code < 2 ^ 2 := by cases x <;> decide

theorem SlotState.code_lt (x : SlotState) : x.code < 2 ^ 3 := by cases x <;> decide

theorem Mark.code_lt (x : Mark) : x.code < 2 ^ 2 := by cases x <;> decide

theorem Presence.code_lt (x : Presence) : x.code < 2 ^ 2 := by cases x <;> decide

theorem Speed.code_lt (x : Speed) : x.code < 2 ^ 1 := by cases x <;> decide

theorem LossPolicy.code_lt (x : LossPolicy) : x.code < 2 ^ 1 := by cases x <;> decide

theorem Status.code_lt (x : Status) : x.code < 2 ^ 5 := by cases x <;> decide

theorem lastFinalCode_lt (x : Option Status) : lastFinalCode x < 2 ^ 5 := by
  cases x with
  | none => decide
  | some st => exact st.code_lt

theorem SlotOutcome.code_lt (x : SlotOutcome) : x.code < 2 ^ 5 := by
  cases x with
  | completed st => exact st.code_lt
  | none | badKind | badTarget | badLength | badPoll => decide

theorem TableStatus.code_lt (x : TableStatus) : x.code < 2 ^ 4 := by cases x <;> decide

theorem CmdResult.code_lt (x : CmdResult) : x.code < 2 ^ 8 := by cases x <;> decide

/-- A list that holds no slot twice has no more than 32 of them. -/
theorem length_le_of_nodup {l : List SlotId} (h : l.Nodup) : l.length ≤ 32 := by
  simpa using h.length_le_card

/-- No more than the 32 slots refer to an entry (R10). -/
theorem refCount_le {s : State} (h : ReferenceInv s) (k : TargetId) : (s.target k).refCount ≤ 32 := by
  rw [h.counted k]
  exact List.countP_le_length

/-! ### The words that a TDATA read returns -/

/-- A TDATA read at the index of a word returns its value (R184). -/
theorem tableRead_wordAt {s : State} {id i w : Nat} {x : TableWord} (ho : s.windowOpen = true) (h : WordAt id i w x) :
    tableRead s id i w = s.tableValue x := by
  have hbounds : id < 8 ∧ i < 64 ∧ w < 64 := by cases h <;> omega
  obtain ⟨hid, hi, hw⟩ := hbounds
  exact tableRead_eq s id i w x ho hid hi hw (tableWord_of_wordAt h)

/-- The fields of the word at an index are those of its value. -/
theorem fields_tableRead {s : State} {id i w : Nat} {x : TableWord} {fs : List (Nat × Nat × Nat)} (ho : s.windowOpen = true)
    (h : WordAt id i w x) (hfields : Fields (s.tableValue x) fs) : Fields (tableRead s id i w) fs :=
  (tableRead_wordAt ho h).symm ▸ hfields

theorem targetWords {s : State} (ho : s.windowOpen = true) (hr : ReferenceInv s) (hc : CountInv s) (k : TargetId) : TargetWords s k := by
  have href := refCount_le hr k
  have hfail := hc.failureCount k
  refine ⟨fields_tableRead ho (.identity k) ?_, fields_tableRead ho (.policy k) ?_,
    fields_tableRead ho (.targetStatus k (by decide) (by decide)) ?_, fields_tableRead ho (.targetStatus k (by decide) (by decide)) ?_⟩
  · exact fields_of_inOrder rfl (.cons (BitVec.isLt _) <| .cons (BitVec.isLt _) <| .cons (bit_lt_two _) .nil)
      (by simp [State.tableValue, TargetEntry.identityWord, placed, BitVec.or_assoc, flagBit_eq])
  · exact fields_of_inOrder rfl (.cons (BitVec.isLt _) <| .cons (BitVec.isLt _) <| .cons (Speed.code_lt _) .nil)
      (by simp [State.tableValue, TargetEntry.policyWord, placed, BitVec.or_assoc])
  · exact fields_of_inOrder rfl (.cons (Presence.code_lt _) <| .cons (by omega) .nil)
      (by simp [State.tableValue, TargetEntry.presenceWord, placed])
  · exact fields_of_inOrder rfl (.cons (by omega) <| .cons (lastFinalCode_lt _) .nil)
      (by simp [State.tableValue, TargetEntry.referenceWord, placed])

/-- A number of a unit fits a field of its word. -/
theorem fin_lt {k : Nat} (i : Fin k) {width : Nat} (h : k ≤ 2 ^ width) : i.val < 2 ^ width := Nat.lt_of_lt_of_le i.isLt h

theorem slotWords {s : State} (ho : s.windowOpen = true) (n : SlotId) : SlotWords s n := by
  have hfield : ∀ w, 1 ≤ w → w ≤ 20 → ∀ {fs}, Fields ((s.slot n).word w) fs → Fields (tableRead s 1 n.val w) fs :=
    fun w low high _ h => fields_tableRead ho (.slotField n low high) h
  refine ⟨fields_tableRead ho (.slotStatus n) ?_, hfield 1 (by decide) (by decide) ?_, hfield 2 (by decide) (by decide) ?_,
    hfield 3 (by decide) (by decide) (fields_wordOf _ _), hfield 4 (by decide) (by decide) (fields_wordOf _ _), fun k hk => ?_⟩
  · exact fields_of_inOrder rfl (.cons (SlotState.code_lt _) <| .cons (Mark.code_lt _) <| .cons (fin_lt _ (by decide)) <|
      .cons (SlotOutcome.code_lt _) .nil)
      (by simp [State.tableValue, Slot.word, placed, BitVec.or_assoc])
  · exact fields_of_inOrder rfl (.cons (BitVec.isLt _) <| .cons (BitVec.isLt _) <| .cons (bit_lt_two _) .nil)
      (by simp [Slot.word, placed, BitVec.or_assoc, flagBit_eq])
  · exact fields_of_inOrder rfl (.cons (BitVec.isLt _) <| .cons (BitVec.isLt _) <| .cons (BitVec.isLt _) .nil)
      (by simp [Slot.word, placed, BitVec.or_assoc])
  · rw [Nat.add_comm 5 k]
    exact hfield (k + 5) (by omega) (by omega) (fields_wordOf _ _)

theorem recordWords {s : State} (ho : s.windowOpen = true) (hc : CountInv s) {n : SlotId} {rest : List SlotId} (hq : s.cq.queue = n :: rest) :
    RecordWords s n := by
  have hread : ∀ w, w ≤ 22 → tableRead s 2 0 w = (s.slot n).recordWord n w := fun w hw => by
    rw [tableRead_wordAt ho (.record hw), State.tableValue, hq]
  have hfailures := hc.failures n
  have hpolls := hc.pollsUsed n
  have hbytes := hc.bytesAccepted n
  have hdata := hc.readData n
  refine ⟨?_, ?_, ?_, ?_, ?_, fun k hk => ?_, ?_⟩
  · rw [hread 0 (by decide)]
    exact fields_of_inOrder rfl (.cons (fin_lt _ (by decide)) <| .cons (fin_lt _ (by decide)) <| .cons (BitVec.isLt _) .nil)
      (by simp [Slot.recordWord, placed, BitVec.or_assoc])
  · rw [hread 1 (by decide)]
    exact fields_of_inOrder rfl (.cons (BitVec.isLt _) <| .cons (BitVec.isLt _) .nil)
      (by simp [Slot.recordWord, placed])
  · rw [hread 2 (by decide)]
    exact fields_of_inOrder rfl (.cons (SlotOutcome.code_lt _) <| .cons (by omega) .nil)
      (by simp [Slot.recordWord, placed])
  · rw [hread 3 (by decide)]
    exact fields_of_inOrder rfl (.cons (by omega) <| .cons (by omega) .nil)
      (by simp [Slot.recordWord, placed])
  · rw [hread 4 (by decide)]
    exact fields_of_inOrder rfl (.cons (by omega) .nil) (by simp [Slot.recordWord, placed])
  · rw [Nat.add_comm 5 k, hread (k + 5) (by omega), Slot.recordWord]
    · exact fields_wordOf _ _
    all_goals omega
  · rw [hread 22 (by decide), hread 21 (by decide)]
    apply BitVec.eq_of_getLsbD_eq
    intro i hi
    simp only [Slot.recordWord, BitVec.getLsbD_append, BitVec.getLsbD_extractLsb']
    split
    · simp [*]
    · simp [show 16 + (i - 16) = i by omega, show i - 16 < 16 by omega]

theorem configWords {s : State} (ho : s.windowOpen = true) (hc : CountInv s) (g : Seg) : ConfigWords s g := by
  have hglitch := hc.glitchCount g
  refine ⟨fields_tableRead ho (.config g (by decide)) ?_, fields_tableRead ho (.config g (by decide)) (fields_wordOf _ _),
    fields_tableRead ho (.config g (by decide)) ?_, fields_tableRead ho (.glitchCount g) ?_⟩
  · exact fields_of_inOrder rfl (.cons (BitVec.isLt _) <| .cons (BitVec.isLt _) <| .cons (LossPolicy.code_lt _) <| .cons (Speed.code_lt _) .nil)
      (by simp [State.tableValue, Segment.configWord, placed, BitVec.or_assoc])
  · exact fields_of_inOrder rfl (.cons (BitVec.isLt _) .nil) (by simp [State.tableValue, Segment.configWord, placed])
  · exact fields_of_inOrder rfl (.cons (by omega) .nil) (by simp [State.tableValue, Segment.configWord, placed])

theorem responderWords {s : State} (ho : s.windowOpen = true) (e : EntryId) : ResponderWords s e := by
  refine ⟨fields_tableRead ho (.responder e (by decide)) ?_, fields_tableRead ho (.responder e (by decide)) ?_⟩
  · exact fields_of_inOrder rfl (.cons (BitVec.isLt _) <| .cons (BitVec.isLt _) <| .cons (fin_lt _ (by decide)) <| .cons (bit_lt_two _) <|
      .cons (bit_lt_two _) .nil)
      (by simp [State.tableValue, MatchEntry.word, placed, BitVec.or_assoc, flagBit_eq])
  · exact fields_of_inOrder rfl (.cons (BitVec.isLt _) <| .cons (BitVec.isLt _) .nil)
      (by simp [State.tableValue, MatchEntry.word, placed])

theorem mailboxWords {s : State} (ho : s.windowOpen = true) (hm : MailboxInv s) (m : BoxId) : MailboxWords s m := by
  have hin := (hm.ranges m).inLength
  have hout := (hm.ranges m).outLength
  have hlast := (hm.ranges m).lastRead
  refine ⟨fields_tableRead ho (.inbound m (by decide)) ?_, fun k hk => ?_, fields_tableRead ho (.outboundStatus m) ?_, fun k hk => ?_⟩
  · exact fields_of_inOrder rfl (.cons (InboundState.code_lt _) <| .cons (by omega) .nil)
      (by simp [State.tableValue, Mailbox.inWord, placed])
  · rw [Nat.add_comm 1 k]
    exact fields_tableRead ho (.inbound m (by omega)) (fields_wordOf _ _)
  · exact fields_of_inOrder rfl (.cons (OutboundState.code_lt _) <| .cons (by omega) <| .cons (by omega) .nil)
      (by simp [State.tableValue, Mailbox.outWord, placed, BitVec.or_assoc])
  · rw [Nat.add_comm 1 k]
    exact fields_tableRead ho (.staging m (by omega) (by omega)) (fields_wordOf _ _)

/-! ### The status registers -/

/-- The outbound field of MBSTAT shows HELD for a buffer on which a read is held (R154). -/
theorem mbStatOutbound_eq (s : State) (m : BoxId) : s.mbStatOutbound m = shownOutbound s m := by
  have hheld : (s.holder m).isSome = true ↔ Held s m := by
    rw [← not_iff_not, not_held_iff, Option.not_isSome_iff_eq_none]
  simp only [State.mbStatOutbound, shownOutbound, hheld]

theorem shownOutbound_lt (s : State) (m : BoxId) : shownOutbound s m < 2 ^ 2 := by
  unfold shownOutbound
  split
  · decide
  · exact OutboundState.code_lt _

/-- Every flag stands at its own bit, and the flags fill the word (section 10.2). -/
theorem flagBits_bit : ∀ p ∈ flagBits, p.1.bit = p.2 := by decide

theorem flagBits_cover : ∀ i : Fin 16, ∃ p ∈ flagBits, p.2 = i.val := by decide

/-- A field of one bit holds that bit. -/
theorem toNat_extractLsb'_one (w : Word) (i : Nat) : (w.extractLsb' i 1).toNat = bit (w.getLsbD i) :=
  calc (w.extractLsb' i 1).toNat = w.toNat / 2 ^ i % 2 := by rw [BitVec.extractLsb'_toNat, Nat.shiftRight_eq_div_pow]
    _ = (w.getLsbD i).toNat := (Nat.toNat_testBit _ _).symm
    _ = bit (w.getLsbD i) := by cases w.getLsbD i <;> rfl

/-- A word of the sixteen flags shows each at its bit. -/
theorem fields_flags (w : Word) : Fields w (flagBits.map (fun p => (p.2, 1, bit (w.getLsbD p.1.bit)))) := by
  refine ⟨fun f hf => ?_, fun b hb => ?_⟩
  · obtain ⟨p, hp, rfl⟩ := List.mem_map.mp hf
    rw [flagBits_bit p hp]
    exact toNat_extractLsb'_one w p.2
  · by_contra hset
    have hlt : b < 16 := BitVec.lt_of_getLsbD (Bool.not_eq_false _ ▸ hset)
    obtain ⟨p, hp, hbit⟩ := flagBits_cover ⟨b, hlt⟩
    have := hb _ (List.mem_map.mpr ⟨p, hp, rfl⟩)
    simp only at this hbit
    omega

theorem statusRegisters {s : State} (ho : s.windowOpen = true) (hw : WorkInv s) : StatusRegisters s := by
  have hdepth := length_le_of_nodup hw.queuedOnce
  have hfree : s.freeCount ≤ 32 := List.countP_le_length
  refine ⟨fun g => ?_, ?_, ?_, ?_, ?_, ?_, ?_, ?_, ?_⟩ <;> rw [readRegister_open ho]
  · have hlist := length_le_of_nodup (hw.listedOnce g)
    exact fields_of_inOrder rfl (.cons (SegState.code_lt _) <| .cons (EngineState.code_lt _) <| .cons (by omega) <|
      .cons (DownMode.code_lt _) <| .cons (bit_lt_two _) <| .cons (bit_lt_two _) .nil)
      (by simp [State.registerWord, segStatWord, Segment.glitchWatch, State.engine, placed, BitVec.or_assoc, flagBit_eq])
  · exact fields_of_inOrder rfl (.cons (by omega) <| .cons (fin_lt _ (by decide)) .nil)
      (by simp [State.registerWord, State.depth, placed])
  · exact fields_flags s.ev.flags
  · exact fields_flags s.ev.enables
  · exact fields_of_inOrder rfl (.cons (BitVec.isLt _) .nil) (by simp [State.registerWord, placed])
  · exact fields_of_inOrder rfl (.cons (BitVec.isLt _) <| .cons (CmdResult.code_lt _) .nil)
      (by simp [State.registerWord, placed])
  · exact fields_of_inOrder rfl (.cons (Nat.lt_of_le_of_lt hfree (by decide)) .nil)
      (by simp [State.registerWord, State.freeCount, placed])
  · exact fields_of_inOrder rfl (.cons (TableStatus.code_lt _) .nil) (by simp [State.registerWord, placed])
  · exact fields_of_inOrder rfl (.cons (InboundState.code_lt _) <| .cons (shownOutbound_lt _ _) <| .cons (InboundState.code_lt _) <|
      .cons (shownOutbound_lt _ _) <| .cons (InboundState.code_lt _) <| .cons (shownOutbound_lt _ _) <| .cons (InboundState.code_lt _) <|
      .cons (shownOutbound_lt _ _) .nil)
      (by simp [State.registerWord, State.mbStatField, mbStatOutbound_eq, placed, BitVec.or_assoc])

/-! ### Registers while a reset is under way -/

theorem readRegister_held {s : State} (h : s.rstHeld = true) (r : Register) : s.readRegister r = 0 := if_pos h

/-- CTL shows reset-busy, while DEVICE_RESET runs too (R188). -/
theorem readRegister_ctl {s : State} (h : s.rstHeld = false) : s.readRegister .ctl = s.registerWord .ctl := by
  simp [State.readRegister, h]

theorem readRegister_busy {s : State} (hrst : s.rstHeld = false) (hbusy : s.win.resetBusy = true) {r : Register} (hid : r ≠ .winId)
    (hrev : r ≠ .winRev) (hctl : r ≠ .ctl) : s.readRegister r = 0 := by
  cases r with
  | winId => exact absurd rfl hid
  | winRev => exact absurd rfl hrev
  | ctl => exact absurd rfl hctl
  | _ => simp [State.readRegister, hrst, hbusy]

/-- Settles O29: each word by its layout, and the registers by the reset that is under way. -/
theorem wordsShowTheirFields : Obligations.WordsShowTheirFields := by
  refine ⟨codesOfTheFields, fun s ho hw hr hm hc => ?_,
    fun s hrst => ⟨?_, fun r hbusy hid hrev hctl => readRegister_busy hrst hbusy hid hrev hctl⟩, fun s r hheld => readRegister_held hheld r⟩
  · exact ⟨targetWords ho hr hc, slotWords ho, fun n rest hq => recordWords ho hc hq, configWords ho hc, responderWords ho, mailboxWords ho hm,
      statusRegisters ho hw⟩
  · rw [readRegister_ctl hrst]
    exact fields_of_inOrder rfl (.cons (bit_lt_two _) <| .cons (bit_lt_two _) <| .cons (bit_lt_two _) .nil)
      (by simp [State.registerWord, placed, BitVec.or_assoc, flagBit_eq])

/-! ### The words after RST# -/

theorem byteAt_replicate (i : Nat) : byteAt (Vector.replicate 32 0) i = 0 := by
  rw [byteAt, Vector.toArray_replicate, Array.toList_replicate, List.getD_eq_getElem?_getD, List.getElem?_replicate]
  split <;> rfl

/-- Every word of a slot is 0 after RST# (R41). -/
theorem resetSlot_word {w : Nat} (h : w ≤ 20) : Slot.word {} w = 0 := by
  match w with
  | 0 | 1 | 2 | 3 | 4 => decide
  | k + 5 =>
    rw [Slot.word, bufferWord, byteAt_replicate, byteAt_replicate]
    rfl

theorem resetBox_inWord (w : Nat) : Mailbox.inWord {} w = 0 := by
  match w with
  | 0 => decide
  | k + 1 =>
    rw [Mailbox.inWord, bufferWordTo, if_neg (Nat.not_lt_zero _), if_neg (Nat.not_lt_zero _)]
    rfl

theorem resetBox_outWord (w : Nat) : Mailbox.outWord {} w = 0 := by
  match w with
  | 0 => decide
  | k + 1 =>
    rw [Mailbox.outWord, bufferWord, byteAt_replicate, byteAt_replicate]
    rfl

/-- Settles O3: the registers by their values, and the words of a table by that of any of its rows. -/
theorem registersAfterReset : Obligations.RegistersAfterReset := by
  refine ⟨rfl, rfl, rfl, rfl, rfl, rfl, rfl, rfl, rfl, rfl, by decide, rfl, rfl, rfl, rfl, rfl, by decide, fun g => ?_, fun g => ?_,
    fun e => ?_, fun k => ?_, fun n => ?_, fun w _ => rfl, fun m => ?_⟩
  · rw [readRegister_open rfl, State.registerWord, reset_seg]
    decide
  · simp only [State.tableValue, reset_seg]
    decide
  · simp only [State.tableValue, show State.reset.entry e = {} from replicate_getElem _ e]
    decide
  · simp only [State.tableValue, reset_target]
    decide
  · simp only [State.tableValue, reset_slot]
    exact ⟨resetSlot_word (by decide), fun w _ hw => resetSlot_word hw⟩
  · simp only [State.tableValue, reset_box]
    exact ⟨fun w _ => resetBox_inWord w, resetBox_outWord 0, fun w _ _ => resetBox_outWord w⟩

end Sys2Proof.Machine
end

section
/-! SUPPORT. The accesses of the host (R179): the word that a strobe selects, the row that it is taken as, and what the plain registers store. -/

namespace Sys2Proof.Machine

open Sys2Proof.Claims

/-! ### The word that a strobe selects -/

theorem windowWord_register : ∀ p ∈ registerOffsets, windowWord (lines p.1) = .register p.2 := by decide

theorem windowWord_tdata : windowWord (lines 0x1A) = .tdata := by decide

theorem windowWord_undefined : ∀ w : Fin 8, windowWord (lines (0x30 + 2 * w.val)) = .undefined w := by decide

/-- A read strobe is the row of its word (R179). -/
theorem strobeRow_read {offset : Nat} {x : WindowWord} (s : State) (h : windowWord (lines offset) = x) :
    strobeRow true (lines offset) .read s = readRow x := h ▸ rfl

/-- A write strobe is the row of its word (R179). -/
theorem strobeRow_write {offset : Nat} {x : WindowWord} (v : Word) (s : State) (h : windowWord (lines offset) = x) :
    strobeRow true (lines offset) (.write v) s = some (writeRow x v s) := h ▸ rfl

/-! ### Reads -/

/-- Of the registers TBLO alone has a read with an effect of its own (R176). -/
theorem readRow_register {r : Register} (h : r ≠ .tbLo) : readRow (.register r) = none := by
  cases r with
  | tbLo => exact absurd rfl h
  | _ => rfl

/-- A read of a register shows its value, and is a step for TBLO alone (R179). -/
theorem registerRead {offset : Nat} {r : Register} (s : State) (h : (offset, r) ∈ registerOffsets) :
    strobeData true (lines offset) s = some (s.readRegister r) ∧
      (r ≠ .tbLo → s.strobe true (lines offset) .read = s) ∧ (r = .tbLo → StrobeIs s offset .read .tbloRead) := by
  have hword : windowWord (lines offset) = .register r := windowWord_register _ h
  refine ⟨by rw [strobeData, hword]; rfl, fun hr => ?_, fun hr => strobe_step ?_⟩
  · rw [State.strobe, strobeRow_read s hword, readRow_register hr]
  · rw [strobeRow_read s hword, hr]
    rfl

theorem tdataWord_selected {s : State} {x : TableWord} (ho : s.windowOpen = true) (hx : s.selected = some x) :
    s.tdataWord = s.tableValue x := by
  simp only [State.tdataWord, ho, hx, if_true]

theorem tdataWord_outside {s : State} (ho : s.windowOpen = true) (hx : s.selected = none) : s.tdataWord = 0 := by
  simp only [State.tdataWord, ho, hx, if_true]

/-- The word that a TDATA read puts on the lines is that of TDATA at the moment of the strobe (R179, R184, R185). -/
theorem tdataRead_data (s : State) : ∃ t : State, exec .tdataRead s = .next t ∧ t.win.readData = s.tdataWord := by
  by_cases ho : s.windowOpen = true
  · cases hx : s.selected with
    | some x => exact ⟨_, exec_tdataRead_selected ho hx, (tdataWord_selected ho hx).symm⟩
    | none => exact ⟨_, exec_tdataRead_outside ho hx, (tdataWord_outside ho hx).symm⟩
  · have hzero : s.tdataWord = 0 := if_neg ho
    exact ⟨_, congrArg Host.Outcome.next (if_neg ho), hzero.symm⟩

/-! ### Writes -/

/-- A write of a register other than CMD is its own row. -/
theorem registerWrite_strobe {v : Word} {offset : Nat} {i : Instr} (s : State) (h : (offset, i) ∈ writeRows v) :
    StrobeIs s offset (.write v) i := by
  have hrow : ∀ p ∈ writeRows v, ∃ r, (p.1, r) ∈ registerOffsets ∧ registerWriteRow r v = p.2 := by
    simp [writeRows, registerOffsets, registerWriteRow]
  obtain ⟨r, hr, hi⟩ := hrow _ h
  exact strobe_step ((strobeRow_write v s (windowWord_register _ hr)).trans (congrArg some hi))

/-- A code of the table of section 10.3 is written as the row of its command (R182). -/
theorem cmdWrite_row : ∀ p ∈ commandRows, cmdWrite p.1 = p.2 := by decide

theorem cmdWrite_unknown {code : BitVec 8} (h : code ∉ commandCodes) : cmdWrite code = .unknownCommand code := by
  rw [cmdWrite, ofCode_none h]

theorem command_strobe (s : State) (v : Word) : StrobeIs s 0x06 (.write v) (cmdWrite (v.extractLsb' 0 8)) :=
  strobe_step (strobeRow_write v s (windowWord_register (0x06, .cmd) (by decide)))

/-- A word that the host never writes is written as a read-only word. -/
theorem tdataWriteRow_readOnly {x : TableWord} (v : Word) (h : x.readOnly = true) :
    tdataWriteRow (some x) v = .readOnlyTableWrite v := by
  cases x with
  | targetStatus | slotStatus | record | glitchCount | inbound | outboundStatus => rfl
  | identity | policy | slotField | config | responder | staging => exact nomatch h

/-- A write of TDATA is the row of the word that is selected (R184, R185). -/
theorem tdataRow_selected (s : State) (v : Word) : TdataRow s v (tdataWriteRow s.selected v) := by
  have hword : ∀ {id i w : Nat} {x : TableWord}, WordAt id i w x → Selects s id i w → s.selected = some x := fun hx h =>
    (selected_of_selects h).trans (tableWord_of_wordAt hx)
  exact {
    outside := fun h => by rw [selected_of_outside h]; rfl
    readOnly := fun h => by
      obtain ⟨x, hsel, hx⟩ := selected_of_readOnly h
      rw [hsel, tdataWriteRow_readOnly v hx]
    identity := fun k h => by rw [hword (.identity k) h]; rfl
    policy := fun k h => by rw [hword (.policy k) h]; rfl
    slot := fun n w low high h => by rw [hword (.slotField n low high) h]; rfl
    config := fun g w high h => by rw [hword (.config g high) h]; rfl
    responder := fun e w high h => by rw [hword (.responder e high) h]; rfl
    staging := fun m w low high h => by rw [hword (.staging m low high) h]; rfl }

/-! ### The plain registers -/

theorem exec_registerWrite {s : State} (r : PlainRegister) (v : Word) (ho : s.windowOpen = true) :
    exec (.registerWrite r v) s = .next (writePlain r v s) := congrArg Host.Outcome.next (onWindow_open _ ho)

/-- A write of a read-only register is ignored (R179). -/
theorem writePlain_readOnly {r : PlainRegister} (v : Word) (s : State) (hsel : r ≠ .tsel) (hidx : r ≠ .tidx) (harg : r ≠ .cmdArg) :
    writePlain r v s = s := by
  cases r with
  | tsel => exact absurd rfl hsel
  | tidx => exact absurd rfl hidx
  | cmdArg => exact absurd rfl harg
  | _ => rfl

/-- The bits of a field that is placed where it was taken from. -/
theorem getLsbD_place_extract (v : Word) {lo width : Nat} (i : Nat) (h : lo + width ≤ 16) :
    (place lo (v.extractLsb' lo width).toNat).getLsbD i = (decide (lo ≤ i ∧ i < lo + width) && v.getLsbD i) := by
  rw [getLsbD_place, BitVec.testBit_toNat, BitVec.getLsbD_extractLsb']
  by_cases hin : lo ≤ i ∧ i < lo + width
  · rw [show lo + (i - lo) = i by omega]
    simp [hin, show i < 16 by omega, show i - lo < width by omega]
  · rw [decide_eq_false hin, Bool.false_and]
    by_cases hlo : lo ≤ i
    · simp [show ¬ i - lo < width by omega]
    · simp [hlo]

/-- A word of two fields taken from a written word is the written word under the mask of their bits. -/
theorem place_or_place_eq_and {v mask : Word} {lo width lo' width' : Nat} (h : lo + width ≤ 16) (h' : lo' + width' ≤ 16)
    (hmask : ∀ i : Fin 16, mask.getLsbD i.val =
      (decide (lo ≤ i.val ∧ i.val < lo + width) || decide (lo' ≤ i.val ∧ i.val < lo' + width'))) :
    place lo (v.extractLsb' lo width).toNat ||| place lo' (v.extractLsb' lo' width').toNat = v &&& mask := by
  apply BitVec.eq_of_getLsbD_eq
  intro i hi
  rw [BitVec.getLsbD_or, getLsbD_place_extract v i h, getLsbD_place_extract v i h', ← Bool.and_or_distrib_right, BitVec.getLsbD_and,
    hmask ⟨i, hi⟩, Bool.and_comm]

/-- What TSEL shows of a written word (R183). -/
theorem tselWord (v : Word) : place 0 (v.extractLsb' 0 6).toNat ||| place 8 (v.extractLsb' 8 3).toNat = v &&& 0x073F#16 :=
  place_or_place_eq_and (by decide) (by decide) (by decide)

/-- What TIDX shows of a written word (R183). -/
theorem tidxWord (v : Word) : place 0 (v.extractLsb' 0 6).toNat ||| place 15 (flagBit (v.getLsbD 15)) = v &&& 0x803F#16 := by
  rw [flagBit_eq, ← toNat_extractLsb'_one]
  exact place_or_place_eq_and (by decide) (by decide) (by decide)

theorem writtenRegisters {s : State} (v : Word) (ho : s.windowOpen = true) :
    (writePlain .tsel v s).readRegister .tsel = v &&& 0x073F#16 ∧ (writePlain .tidx v s).readRegister .tidx = v &&& 0x803F#16 ∧
      (writePlain .cmdArg v s).readRegister .cmdArg = v :=
  ⟨(readRegister_open (s := writePlain .tsel v s) ho .tsel).trans (tselWord v),
    (readRegister_open (s := writePlain .tidx v s) ho .tidx).trans (tidxWord v), readRegister_open (s := writePlain .cmdArg v s) ho .cmdArg⟩

/-- Settles O40: the plain registers by what they store, and a strobe by the word that it selects. -/
theorem plainRegistersStoreTheirFields : Obligations.PlainRegistersStoreTheirFields := by
  refine ⟨fun s v ho => ?_, fun s la a => ⟨rfl, rfl⟩, fun s offset r h => registerRead s h, fun s => ⟨strobe_step ?_, ?_⟩,
    fun s v => ⟨fun offset i h => registerWrite_strobe s h, fun code i hi hcode => ?_, fun hcode => ?_, ?_⟩,
    fun s w v => ⟨strobe_step ?_, ?_, strobe_step ?_⟩⟩
  · obtain ⟨hsel, hidx, harg⟩ := writtenRegisters v ho
    exact ⟨⟨_, exec_registerWrite .tsel v ho, hsel, rfl⟩, ⟨_, exec_registerWrite .tidx v ho, hidx, rfl⟩,
      ⟨_, exec_registerWrite .cmdArg v ho, harg, rfl⟩, fun r hsel hidx harg =>
        (exec_registerWrite r v ho).trans (congrArg Host.Outcome.next (writePlain_readOnly v s hsel hidx harg))⟩
  · exact strobeRow_read s windowWord_tdata
  · obtain ⟨t, ht, hdata⟩ := tdataRead_data s
    refine ⟨t, ht, ?_⟩
    rw [strobeData, windowWord_tdata, hdata]
    rfl
  · have hrow : cmdWrite code = i := cmdWrite_row _ hi
    rw [← hrow, ← hcode]
    exact command_strobe s v
  · rw [← cmdWrite_unknown hcode]
    exact command_strobe s v
  · exact ⟨_, tdataRow_selected s v, strobe_step (strobeRow_write v s windowWord_tdata)⟩
  · exact strobeRow_read s (windowWord_undefined w)
  · rw [strobeData, windowWord_undefined w]
    rfl
  · exact strobeRow_write v s (windowWord_undefined w)

end Sys2Proof.Machine
end
